-- ==== Sys2Proof/Word.lean ====
section
/-! DEFINITION. The word types of the block (00_scope.md R8, R9, R11, R15 to R19) and the two-sided tables. -/

namespace Sys2Proof

/-- One value of the numeric format `F`, held as its binary32 bit pattern, so that `f32` and `bits32` of R16 are the
identity and equality of data is "bit-identical" (R11, R16). -/
abbrev F := BitVec 32

/-- A command word (R110). -/
abbrev Word := BitVec 64

/-- A response value (R116). -/
abbrev Resp := BitVec 32

/-- `ZERO`, positive zero (R11). -/
abbrev zeroF : F := 0#32

/-- The largest polyphony count of one side (R8). -/
abbrev maxPoly : Nat := 16

/-- The vector width (R8). -/
abbrev lanes : Nat := 4

/-- The number of global lane slots, `2 × MAX_POLY` (R9). -/
abbrev nSlots : Nat := 32

/-- The number of SIMD groups, `N_SLOTS / LANES` (R9). -/
abbrev nGroups : Nat := 8

/-- The number of scalar parameters (R8). -/
abbrev nScalars : Nat := 5

/-- The number of modulation sources of one parameter (R8). -/
abbrev nModSrc : Nat := 4

/-- A vector register: four lanes, lane 0 first (R17). -/
abbrev Vec4 := Vector F 4

/-- `ZERO4` (R17). -/
abbrev zero4 : Vec4 := Vector.replicate 4 zeroF

/-- A global slot `q`, `0 ≤ q < N_SLOTS` (R19, R102). -/
abbrev Slot := Fin 32

/-- A group index. -/
abbrev GroupIx := Fin 8

/-- A lane index. -/
abbrev LaneIx := Fin 4

/-- A channel index, `0 ≤ v < MAX_POLY` (R19). -/
abbrev Channel := Fin 16

/-- A side, left (number 0) or right (number 1) (R19, R108). -/
inductive Side where
  | left
  | right
deriving DecidableEq, Repr

/-- A table with one entry for each side. -/
structure PerSide (α : Type) where
  left : α
  right : α
deriving DecidableEq, Repr

namespace PerSide

variable {α : Type}

/-- The same entry on both sides. -/
def both (a : α) : PerSide α := ⟨a, a⟩

/-- The entry of a side. -/
def get (t : PerSide α) : Side → α
  | .left => t.left
  | .right => t.right

/-- The table with the entry of one side replaced. -/
def set (t : PerSide α) (side : Side) (a : α) : PerSide α :=
  match side with
  | .left => { t with left := a }
  | .right => { t with right := a }

/-- The table whose entry of each side is a function of the side. -/
def build (f : Side → α) : PerSide α := ⟨f .left, f .right⟩

@[simp] theorem get_both (a : α) (sd : Side) : (both a).get sd = a := by cases sd <;> rfl

@[simp] theorem get_build (f : Side → α) (sd : Side) : (build f).get sd = f sd := by cases sd <;> rfl

@[simp] theorem get_set_same (t : PerSide α) (sd : Side) (a : α) : (t.set sd a).get sd = a := by
  cases sd <;> rfl

theorem get_set (t : PerSide α) (sd sd' : Side) (a : α) :
    (t.set sd a).get sd' = if sd' = sd then a else t.get sd' := by
  cases sd <;> cases sd' <;> rfl

theorem ext_get {t u : PerSide α} (h : ∀ sd, t.get sd = u.get sd) : t = u := by
  cases t; cases u
  exact congrArg₂ PerSide.mk (h .left) (h .right)

end PerSide

end Sys2Proof
end

