-- ==== Sys2Proof/Machine/Float32.lean ====
section
/-! DEFINITION. IEEE 754 binary32 arithmetic on bit patterns, round to nearest, ties to even, subnormals kept, no flags
and no traps (R11, R16; D3). The rounding rules themselves are the standard's (log 15). Which NaN an operation returns
is not fixed by the spec (vector V-BP6): every operation takes it as an argument (log 6). -/

namespace Sys2Proof.Float32

open Sys2Proof

/-- The sign bit. -/
def sign (x : F) : Bool := x.getLsbD 31

/-- The biased exponent field, bits 30..23. -/
def expField (x : F) : Nat := x.toNat / 2 ^ 23 % 2 ^ 8

/-- The fraction field, bits 22..0. -/
def fracField (x : F) : Nat := x.toNat % 2 ^ 23

/-- A NaN: exponent field all ones and a nonzero fraction. -/
def isNaN (x : F) : Bool := expField x == 255 && fracField x != 0

/-- An infinity: exponent field all ones and a zero fraction. -/
def isInf (x : F) : Bool := expField x == 255 && fracField x == 0

/-- Neither a NaN nor an infinity. -/
def isFinite (x : F) : Bool := expField x != 255

/-- Positive or negative zero. -/
def isZero (x : F) : Bool := expField x == 0 && fracField x == 0

/-- Finite and greater than zero: the legal values of a sample rate (R10, R128, R254). -/
def isFinitePos (x : F) : Bool := isFinite x && !isZero x && !sign x

/-- Finite and not zero: the legal values of `IN_SCALE` (R10). -/
def isFiniteNonzero (x : F) : Bool := isFinite x && !isZero x

/-- The integer significand of a finite value: its magnitude is `mant x × 2 ^ expo x`. -/
def mant (x : F) : Nat := if expField x = 0 then fracField x else 2 ^ 23 + fracField x

/-- A power of two, of either sign: one bit in the significand. -/
def isPowerOfTwo (x : F) : Bool := isFinite x && mant x == 2 ^ Nat.log2 (mant x)

/-- The exponent of the significand's unit. -/
def expo (x : F) : Int := if expField x = 0 then -149 else (expField x : Int) - 150

/-- The pattern with a given sign and a given 31-bit magnitude pattern. -/
def withSign (s : Bool) (magnitude : Nat) : F :=
  BitVec.ofNat 32 (if s then 2 ^ 31 + magnitude else magnitude)

/-- The infinity of a sign. -/
def infinity (s : Bool) : F := withSign s (255 * 2 ^ 23)

/-- The zero of a sign. -/
def zero (s : Bool) : F := withSign s 0

/-- `m / 2 ^ k` rounded to an integer, ties to even. -/
def roundShift (m k : Nat) : Nat :=
  if k = 0 then m
  else
    let q := m / 2 ^ k
    let r := m % 2 ^ k
    let half := 2 ^ (k - 1)
    if half < r ∨ (r = half ∧ q % 2 = 1) then q + 1 else q

/-- The binary32 pattern of sign `s` nearest to `m × 2 ^ e`, ties to even. The unit of the result is `2 ^ u`, the least
exponent that leaves at most 24 significant bits and is not below -149 (subnormals kept); a carry out of the
significand moves into the exponent field by itself, and a magnitude past the largest finite value is infinity. -/
def round (s : Bool) (m : Nat) (e : Int) : F :=
  if m = 0 then zero s
  else
    let u : Int := max (e + (Nat.log2 m : Int) - 23) (-149)
    let n := if e ≤ u then roundShift m (u - e).toNat else m * 2 ^ (e - u).toNat
    let magnitude := (u + 149).toNat * 2 ^ 23 + n
    if 255 * 2 ^ 23 ≤ magnitude then infinity s else withSign s magnitude

/-- A quiet NaN made from any pattern: sign and payload are the pattern's. -/
def quietNaN (x : F) : F := x ||| 0x7FC00000#32

/-- The value with its sign bit flipped, `fneg` of R191. -/
def neg (x : F) : F := x ^^^ 0x80000000#32

/-- `fmul` (R16): `nan` is what the operation returns when its result is a NaN. -/
def mul (nan a b : F) : F :=
  let s := sign a != sign b
  if isNaN a || isNaN b then nan
  else if isInf a || isInf b then
    if isZero a || isZero b then nan else infinity s
  else round s (mant a * mant b) (expo a + expo b)

/-- The signed significand of a finite value, in units of `2 ^ e` for `e ≤ expo x`. -/
def signedMant (x : F) (e : Int) : Int :=
  let m : Int := (mant x * 2 ^ (expo x - e).toNat : Nat)
  if sign x then -m else m

/-- A finite value as a whole number of units of `2 ^ (-149)`, the smallest magnitude of the format. -/
def units (x : F) : Int := signedMant x (-149)

/-- The unit in the last place of a finite value, in units of `2 ^ (-149)`. -/
def ulp (x : F) : Nat := 2 ^ (expo x + 149).toNat

/-- `fadd` (R16). An exact zero sum of operands of unlike signs is positive zero. -/
def add (nan a b : F) : F :=
  if isNaN a || isNaN b then nan
  else if isInf a then
    if isInf b && sign a != sign b then nan else a
  else if isInf b then b
  else
    let e := min (expo a) (expo b)
    let sum := signedMant a e + signedMant b e
    if sum = 0 then zero (sign a && sign b)
    else round (decide (sum < 0)) sum.natAbs e

/-- `fdiv` (R16). The quotient of significands is taken to 52 more bits and a last bit that says whether anything was
left over, which is enough for one correct rounding. -/
def div (nan a b : F) : F :=
  let s := sign a != sign b
  if isNaN a || isNaN b then nan
  else if isInf a then (if isInf b then nan else infinity s)
  else if isInf b then zero s
  else if isZero b then (if isZero a then nan else infinity s)
  else
    let scaled := mant a * 2 ^ 52
    let q := scaled / mant b
    let sticky := if scaled % mant b = 0 then 0 else 1
    round s (2 * q + sticky) (expo a - expo b - 53)

/-- An integer converted to `F` (the `BS` of R191). -/
def ofNat (n : Nat) : F := round false n 0

end Sys2Proof.Float32
end

