-- ==== Sys2Proof/Machine/Group.lean ====
section
/-! DEFINITION. The Filter Unit State of one SIMD group (R21 to R28) and the transient computation context (R52): the
types that the configuration functions of Config.lean read and write. -/

namespace Sys2Proof

/-- `GS[g]` together with `DB[g]` (R21): all that a configuration function applied to group `g` may reach (R28).
`DBPTR[g][l]` is the constant position `l` in `db` (R27). -/
structure GroupState (nReg nCoef delayLen : Nat) where
  /-- `REG[g]`, the filter register file (R22). -/
  reg : Vector Vec4 nReg
  /-- `COEF[g]`, the coefficient file (R23). -/
  coef : Vector Vec4 nCoef
  /-- `RAMP[g]`, the smoothing trajectory (R24). -/
  ramp : Vector Vec4 nCoef
  /-- `WP[g][l]`, an element index of the lane's delay buffer (R25). -/
  wp : Vector (Fin delayLen) 4
  /-- `ACTIVE[g]`, bit `l` for lane `l` (R26, R107). -/
  active : BitVec 4
  /-- `DB[g][l][i]`, the delay buffers (R71). -/
  db : Vector (Vector F delayLen) 4
deriving DecidableEq, Repr

/-- The named parameter slots (R44, R109). -/
structure ParamSlots where
  /-- Slots 0 to 4: FREQ, RES, INGAIN, MIX, OUTGAIN. -/
  scalars : Vector F 5
  /-- Slot 5, TYPE, a 32-bit signed integer. -/
  type : Int
  /-- Slot 6, SUBTYPE, a 32-bit signed integer. -/
  subtype : Int
deriving DecidableEq, Repr

/-- `Ctx`, the transient computation context of the Coefficient Maker (R12, R52). The spec leaves its type to the
model: the three arrays of the reference instantiation (R191) and a list for whatever else an instantiation keeps
(log 10). -/
structure Ctx (nCoef : Nat) where
  start : Vector F nCoef
  target : Vector F nCoef
  delta : Vector F nCoef
  aux : List F
deriving DecidableEq, Repr, Inhabited

/-- The twenty modulation inputs, `MOD[p][s]` (R45). -/
abbrev ModTable := Vector (Vector F 4) 5

/-- The arguments of `CoefTarget` (R12, R184). -/
structure CoefInputs (nCoef : Nat) where
  sharedCfg : List F
  type : Int
  subtype : Int
  param : ParamSlots
  mods : ModTable
  group : GroupIx
  sampleRate : F
  blockSize : Nat
  /-- `c0[c]`, lane 0 of every coefficient (R183). -/
  start : Vector F nCoef
deriving DecidableEq, Repr

end Sys2Proof
end

