-- ==== Sys2Proof/Config.lean ====
section
/-! DEFINITION. The parameters and configuration functions that the spec leaves OPEN (R10, R12, R51; D4 to D8, D32), and
the opaque constants that stand for those of the one device that `exec` and `step` run (log 3). Legal values and frame
conditions hold by construction: a raw component is any value at all, and what the machine uses is its projection onto
the legal ones (log 4, 5, 8, 9, 21, 22). -/

namespace Sys2Proof

/-- The open counts. Each is at least 1 (R10), so its predecessor is kept. -/
structure Sizes where
  blockSizePred : Nat
  nRegPred : Nat
  nCoefPred : Nat
  delayLenPred : Nat
  nTypesPred : Nat
deriving DecidableEq, Repr, Inhabited

/-- `N_REG` (R10). -/
abbrev Sizes.nReg (z : Sizes) : Nat := z.nRegPred + 1

/-- `N_COEF` (R10). -/
abbrev Sizes.nCoef (z : Sizes) : Nat := z.nCoefPred + 1

/-- `DELAY_LEN` (R10). -/
abbrev Sizes.delayLen (z : Sizes) : Nat := z.delayLenPred + 1

/-- The Filter Unit State at the sizes `z`. -/
abbrev Sizes.GS (z : Sizes) : Type := GroupState z.nReg z.nCoef z.delayLen

/-- The open values and functions at the sizes `z`, without any constraint. -/
structure Choices (z : Sizes) where
  /-- `NSUB(t)` (R10). -/
  nSub : Nat → Nat
  /-- `IN_SCALE` (R10), before it is made legal. -/
  inScaleRaw : F
  /-- `OUT_SCALE` (R10), before it is made legal. -/
  outScaleRaw : F
  /-- The tolerance of `OUT_SCALE = 1 / IN_SCALE` (R10, R237), in units in the last place of the finite value
  nearest to `1 / IN_SCALE`. The spec gives it no size (D6, N4; log 5). -/
  scaleTolerance : Nat
  /-- `FS0` (R10, D32), before it is made legal. -/
  fs0Raw : F
  /-- `SHARED_CFG` (R12). -/
  sharedCfg : List F
  /-- The strategy table `FilterFn` (R12, R203), before its functions are kept from `RAMP` (log 22). -/
  filterTable : Nat → Nat → Option (z.GS → Vec4 → z.GS × Vec4)
  /-- `CoefTarget` (R12, R184). -/
  coefTarget : CoefInputs z.nCoef → Ctx z.nCoef
  /-- `LaneUpdate`: the value it writes to `COEF[c][l]`, from the context only (R185). -/
  laneCoef : Ctx z.nCoef → Fin z.nCoef → F
  /-- `LaneUpdate`: the value it writes to `RAMP[c][l]`, from the context only (R185). -/
  laneRamp : Ctx z.nCoef → Fin z.nCoef → F
  /-- `LaneUpdate`: the register file it leaves ("may overwrite group registers", R185), from the context, `REG`, `COEF`
  and `RAMP` of the group and the lane: what R70 lets it reach. -/
  laneReg : Ctx z.nCoef → Vector Vec4 z.nReg → Vector Vec4 z.nCoef → Vector Vec4 z.nCoef → LaneIx → Vector Vec4 z.nReg
  /-- `Interp` at coefficient `c`, in every lane alike (R183): from the old coefficient and its ramp (R189). -/
  interpStep : Fin z.nCoef → F → F → F
  /-- Which NaN `fmul` returns (log 6). -/
  nanMul : F → F → F
  /-- Which NaN `fadd` returns (log 6). -/
  nanAdd : F → F → F
  /-- Which NaN `fdiv` returns (log 6). -/
  nanDiv : F → F → F
deriving Inhabited

/-- A configuration: everything that is fixed for the life of an instance of the block (R51). -/
structure Config extends Sizes where
  choices : Choices toSizes

/-- The sizes of the device that is modelled: OPEN (D4, D5, D7). Nothing in Lean can evaluate them. -/
opaque Config.deviceSizes : Sizes

/-- The values and functions of the device that is modelled: OPEN (D6, D7, D8, D32). -/
opaque Config.deviceChoices : Choices Config.deviceSizes

/-- The configuration of the device that `State`, `exec` and `step` stand for. -/
def Config.device : Config := ⟨Config.deviceSizes, Config.deviceChoices⟩

/-- `BLOCK_SIZE`, at least 1 (R10). -/
abbrev Config.blockSize (c : Config) : Nat := c.blockSizePred + 1

/-- `N_TYPES`, at least 1 (R10). -/
abbrev Config.nTypes (c : Config) : Nat := c.nTypesPred + 1

end Sys2Proof
end

