-- ==== Sys2Proof/Syntax.lean ====
section
/-! DEFINITION. The fourteen host commands, one constructor for each row of spec/opcode_table.json (R114), the four
pseudo-instructions (R133) and who issues what (R266). -/

namespace Sys2Proof

/-- The named parameter slots (R109): slots 0 to 4 hold `F` values, slots 5 and 6 signed integers. -/
inductive ParamSlot where
  | freq
  | res
  | inGain
  | mix
  | outGain
  | type
  | subtype
deriving DecidableEq, Repr

/-- A host command with its operands assembled (R113, R114). Side, channel, slot, parameter and source numbers are in
range by their types; the other operands are checked in WellFormed.lean. -/
inductive Instr where
  /-- RESET (R252). -/
  | reset
  /-- TICK (R253). -/
  | tick
  /-- SETRATE rate (R254). -/
  | setrate (rate : F)
  /-- SETPOLY side, count (R255). -/
  | setpoly (side : Side) (count : Int)
  /-- WRIN side, channel, voltage (R256). -/
  | wrin (side : Side) (channel : Channel) (voltage : F)
  /-- WRPARAM slot, value (R257); `data` is read as `f32` or as `sint` by the slot (R113). -/
  | wrparam (slot : ParamSlot) (data : BitVec 32)
  /-- WRMOD parameter, source, value (R258). -/
  | wrmod (parameter : Fin 5) (source : Fin 4) (value : F)
  /-- WRDEF type, subtype (R259). -/
  | wrdef (type : BitVec 8) (subtype : Int)
  /-- RDOUT side, channel (R260). -/
  | rdout (side : Side) (channel : Channel)
  /-- RDCH side (R261). -/
  | rdch (side : Side)
  /-- RDTYPE (R262). -/
  | rdtype
  /-- RDSUB (R263). -/
  | rdsub
  /-- RDDEF type (R264). -/
  | rddef (type : BitVec 8)
  /-- RDPARAM slot (R265). -/
  | rdparam (slot : ParamSlot)
deriving DecidableEq, Repr

/-- The pseudo-instruction DISCONNECT side (R133). -/
def Instr.disconnect (side : Side) : Instr := .setpoly side (-1)

/-- The pseudo-instruction SETTYPE n (R133). -/
def Instr.setType (n : Int) : Instr := .wrparam .type (BitVec.ofInt 32 n)

/-- The pseudo-instruction SETSUB n (R133). -/
def Instr.setSub (n : Int) : Instr := .wrparam .subtype (BitVec.ofInt 32 n)

/-- The pseudo-instruction RUN k (R133). -/
def Instr.runTicks (k : Nat) : List Instr := List.replicate k .tick

/-- The parties that issue commands (R266, R301). -/
inductive Issuer where
  | construction
  | realTimeThread
  | controlPath
  | collaborators
deriving DecidableEq, Repr

/-- Who issues a command (R266). A duty of the surroundings: the block does not check it (R301, U8). -/
def Instr.issuer : Instr → Issuer
  | .reset => .construction
  | .tick => .realTimeThread
  | .setrate _ => .controlPath
  | .setpoly _ _ => .realTimeThread
  | .wrin _ _ _ => .realTimeThread
  | .wrparam _ _ => .collaborators
  | .wrmod _ _ _ => .realTimeThread
  | .wrdef _ _ => .collaborators
  | .rdout _ _ => .realTimeThread
  | .rdch _ => .realTimeThread
  | .rdtype => .collaborators
  | .rdsub => .collaborators
  | .rddef _ => .collaborators
  | .rdparam _ => .collaborators

end Sys2Proof
end

