-- ==== Sys2Proof/WellFormed.lean ====
section
/-! DEFINITION. Which command terms stand for a command word: the operand ranges of R114 and R128 that the types of
Syntax.lean do not settle. -/

namespace Sys2Proof

/-- Why a word is reserved, or a command term no command (R128). -/
inductive Reserved where
  /-- `OP` is not in the opcode map. -/
  | opcode
  /-- The field `Z` is not zero. -/
  | fieldZ
  /-- The format uses no `A` and it is not zero. -/
  | fieldA
  /-- The format uses no `B` and it is not zero. -/
  | fieldB
  /-- The format uses no `DATA` and it is not zero. -/
  | fieldData
  /-- A side other than 0 and 1. -/
  | side
  /-- A channel past 15. -/
  | channel
  /-- A parameter slot past 6. -/
  | slot
  /-- A modulated parameter past 4. -/
  | parameter
  /-- A modulation source past 3. -/
  | source
  /-- A sample rate that is not finite and greater than zero. -/
  | rate
  /-- A polyphony count outside -1..16. -/
  | count
  /-- A filter type of `N_TYPES` or more. -/
  | type
  /-- A default subtype outside 0..2147483647. -/
  | subtype
deriving DecidableEq, Repr

/-- The first operand of a command that is outside its legal range, where there are `nTypes` filter types (R114). -/
def Instr.checkFor (nTypes : Nat) : Instr → Option Reserved
  | .reset => none
  | .tick => none
  | .setrate rate => if Float32.isFinitePos rate then none else some .rate
  | .setpoly _ count => if -1 ≤ count ∧ count ≤ 16 then none else some .count
  | .wrin _ _ _ => none
  | .wrparam _ _ => none
  | .wrmod _ _ _ => none
  | .wrdef type subtype =>
    if type.toNat < nTypes then
      if 0 ≤ subtype ∧ subtype ≤ 2147483647 then none else some .subtype
    else some .type
  | .rdout _ _ => none
  | .rdch _ => none
  | .rdtype => none
  | .rdsub => none
  | .rddef type => if type.toNat < nTypes then none else some .type
  | .rdparam _ => none

/-- A command all of whose operands are legal where there are `nTypes` filter types. -/
abbrev Instr.WellFormedFor (nTypes : Nat) (i : Instr) : Prop := i.checkFor nTypes = none

/-- A command all of whose operands are legal on the modelled device. -/
abbrev Instr.WellFormed (i : Instr) : Prop := i.WellFormedFor Config.device.nTypes

end Sys2Proof
end

