-- ==== Sys2Proof/Decode.lean ====
section
/-! DEFINITION. The command word (R110 to R115): its fields, the opcode map, the decoder, total on every 64-bit word and
rejecting each reserved word by name (R128), and the encoder. -/

namespace Sys2Proof

/-- The five fields of a command word (R111). -/
structure Fields where
  op : BitVec 8
  a : BitVec 8
  b : BitVec 8
  z : BitVec 8
  data : BitVec 32
deriving DecidableEq, Repr

/-- `OP = w[63:56]`, `A = w[55:48]`, `B = w[47:40]`, `Z = w[39:32]`, `DATA = w[31:0]` (R111). -/
def fieldsOf (w : Word) : Fields where
  op := w.extractLsb' 56 8
  a := w.extractLsb' 48 8
  b := w.extractLsb' 40 8
  z := w.extractLsb' 32 8
  data := w.extractLsb' 0 32

/-- The word of five fields (R111). -/
def Fields.word (f : Fields) : Word := f.op ++ f.a ++ f.b ++ f.z ++ f.data

/-- The six formats (R112): which of `A`, `B` and `DATA` carry an operand. -/
inductive Format where
  | z
  | a
  | ab
  | d
  | ad
  | abd
deriving DecidableEq, Repr

/-- The format carries an operand in `A`. -/
def Format.usesA : Format → Bool
  | .z => false
  | .a => true
  | .ab => true
  | .d => false
  | .ad => true
  | .abd => true

/-- The format carries an operand in `B`. -/
def Format.usesB : Format → Bool
  | .z => false
  | .a => false
  | .ab => true
  | .d => false
  | .ad => false
  | .abd => true

/-- The format carries an operand in `DATA`. -/
def Format.usesData : Format → Bool
  | .z => false
  | .a => false
  | .ab => false
  | .d => true
  | .ad => true
  | .abd => true

/-- The mask of a format: a 1 in every bit that the format fixes (R112). -/
def Format.mask : Format → Word
  | .z => 0xFFFFFFFFFFFFFFFF#64
  | .a => 0xFF00FFFFFFFFFFFF#64
  | .ab => 0xFF0000FFFFFFFFFF#64
  | .d => 0xFFFFFFFF00000000#64
  | .ad => 0xFF00FFFF00000000#64
  | .abd => 0xFF0000FF00000000#64

/-- The fourteen assigned opcodes (R114). -/
inductive Opcode where
  | reset
  | tick
  | setrate
  | setpoly
  | wrin
  | wrparam
  | wrmod
  | wrdef
  | rdout
  | rdch
  | rdtype
  | rdsub
  | rddef
  | rdparam
deriving DecidableEq, Repr

/-- The opcode map, from a command to its `OP` value (R114). -/
def Opcode.byte : Opcode → BitVec 8
  | .reset => 0x01#8
  | .tick => 0x02#8
  | .setrate => 0x03#8
  | .setpoly => 0x10#8
  | .wrin => 0x11#8
  | .wrparam => 0x12#8
  | .wrmod => 0x13#8
  | .wrdef => 0x14#8
  | .rdout => 0x20#8
  | .rdch => 0x21#8
  | .rdtype => 0x22#8
  | .rdsub => 0x23#8
  | .rddef => 0x24#8
  | .rdparam => 0x25#8

/-- The opcode map, from an `OP` value to a command (R114, R128). -/
def Opcode.ofByte? (op : BitVec 8) : Option Opcode :=
  match op.toNat with
  | 0x01 => some .reset
  | 0x02 => some .tick
  | 0x03 => some .setrate
  | 0x10 => some .setpoly
  | 0x11 => some .wrin
  | 0x12 => some .wrparam
  | 0x13 => some .wrmod
  | 0x14 => some .wrdef
  | 0x20 => some .rdout
  | 0x21 => some .rdch
  | 0x22 => some .rdtype
  | 0x23 => some .rdsub
  | 0x24 => some .rddef
  | 0x25 => some .rdparam
  | _ => none

/-- The format of a command (R114). -/
def Opcode.format : Opcode → Format
  | .reset => .z
  | .tick => .z
  | .setrate => .d
  | .setpoly => .ad
  | .wrin => .abd
  | .wrparam => .ad
  | .wrmod => .abd
  | .wrdef => .ad
  | .rdout => .ab
  | .rdch => .a
  | .rdtype => .z
  | .rdsub => .z
  | .rddef => .a
  | .rdparam => .a

/-- The match value of a command, `op << 56` (R115). -/
def Opcode.matchWord : Opcode → Word
  | .reset => 0x0100000000000000#64
  | .tick => 0x0200000000000000#64
  | .setrate => 0x0300000000000000#64
  | .setpoly => 0x1000000000000000#64
  | .wrin => 0x1100000000000000#64
  | .wrparam => 0x1200000000000000#64
  | .wrmod => 0x1300000000000000#64
  | .wrdef => 0x1400000000000000#64
  | .rdout => 0x2000000000000000#64
  | .rdch => 0x2100000000000000#64
  | .rdtype => 0x2200000000000000#64
  | .rdsub => 0x2300000000000000#64
  | .rddef => 0x2400000000000000#64
  | .rdparam => 0x2500000000000000#64

/-- A side number (R108). -/
def Side.ofByte? (a : BitVec 8) : Except Reserved Side :=
  match a.toNat with
  | 0 => .ok .left
  | 1 => .ok .right
  | _ => .error .side

/-- The number of a side (R108). -/
def Side.byte : Side → BitVec 8
  | .left => 0#8
  | .right => 1#8

/-- A channel number, 0 to 15 (R114). -/
def channelOfByte? (b : BitVec 8) : Except Reserved Channel :=
  if h : b.toNat < 16 then .ok ⟨b.toNat, h⟩ else .error .channel

/-- A parameter slot number, 0 to 6 (R109). -/
def ParamSlot.ofByte? (a : BitVec 8) : Except Reserved ParamSlot :=
  match a.toNat with
  | 0 => .ok .freq
  | 1 => .ok .res
  | 2 => .ok .inGain
  | 3 => .ok .mix
  | 4 => .ok .outGain
  | 5 => .ok .type
  | 6 => .ok .subtype
  | _ => .error .slot

/-- The number of a parameter slot (R109). -/
def ParamSlot.byte : ParamSlot → BitVec 8
  | .freq => 0#8
  | .res => 1#8
  | .inGain => 2#8
  | .mix => 3#8
  | .outGain => 4#8
  | .type => 5#8
  | .subtype => 6#8

/-- A modulated parameter, 0 to 4 (R114). -/
def parameterOfByte? (a : BitVec 8) : Except Reserved (Fin 5) :=
  if h : a.toNat < 5 then .ok ⟨a.toNat, h⟩ else .error .parameter

/-- A modulation source, 0 to 3 (R114). -/
def sourceOfByte? (b : BitVec 8) : Except Reserved (Fin 4) :=
  if h : b.toNat < 4 then .ok ⟨b.toNat, h⟩ else .error .source

/-- The number of a `Fin` as a field of 8 bits. -/
def byteOfFin {n : Nat} (i : Fin n) : BitVec 8 := BitVec.ofNat 8 i.val

/-- The must-be-zero fields of a format (R112). -/
def checkZeros (fmt : Format) (f : Fields) : Option Reserved :=
  if f.z ≠ 0#8 then some .fieldZ
  else if fmt.usesA = false ∧ f.a ≠ 0#8 then some .fieldA
  else if fmt.usesB = false ∧ f.b ≠ 0#8 then some .fieldB
  else if fmt.usesData = false ∧ f.data ≠ 0#32 then some .fieldData
  else none

/-- The operands of a command, assembled from its fields (R113). -/
def assemble (o : Opcode) (f : Fields) : Except Reserved Instr :=
  match o with
  | .reset => .ok .reset
  | .tick => .ok .tick
  | .setrate => .ok (.setrate f.data)
  | .setpoly =>
    match Side.ofByte? f.a with
    | .ok side => .ok (.setpoly side f.data.toInt)
    | .error r => .error r
  | .wrin =>
    match Side.ofByte? f.a, channelOfByte? f.b with
    | .ok side, .ok channel => .ok (.wrin side channel f.data)
    | .ok _, .error r => .error r
    | .error r, _ => .error r
  | .wrparam =>
    match ParamSlot.ofByte? f.a with
    | .ok slot => .ok (.wrparam slot f.data)
    | .error r => .error r
  | .wrmod =>
    match parameterOfByte? f.a, sourceOfByte? f.b with
    | .ok parameter, .ok source => .ok (.wrmod parameter source f.data)
    | .ok _, .error r => .error r
    | .error r, _ => .error r
  | .wrdef => .ok (.wrdef f.a f.data.toInt)
  | .rdout =>
    match Side.ofByte? f.a, channelOfByte? f.b with
    | .ok side, .ok channel => .ok (.rdout side channel)
    | .ok _, .error r => .error r
    | .error r, _ => .error r
  | .rdch =>
    match Side.ofByte? f.a with
    | .ok side => .ok (.rdch side)
    | .error r => .error r
  | .rdtype => .ok .rdtype
  | .rdsub => .ok .rdsub
  | .rddef => .ok (.rddef f.a)
  | .rdparam =>
    match ParamSlot.ofByte? f.a with
    | .ok slot => .ok (.rdparam slot)
    | .error r => .error r

/-- A command with its operand ranges checked (R114, R128). -/
def checked (nTypes : Nat) (i : Instr) : Except Reserved Instr :=
  match i.checkFor nTypes with
  | none => .ok i
  | some r => .error r

/-- The command that a word selects where there are `nTypes` filter types, or why the word is reserved (R114, R128). -/
def decodeFor (nTypes : Nat) (w : Word) : Except Reserved Instr :=
  match Opcode.ofByte? (fieldsOf w).op with
  | none => .error .opcode
  | some o =>
    match checkZeros o.format (fieldsOf w) with
    | some r => .error r
    | none =>
      match assemble o (fieldsOf w) with
      | .ok i => checked nTypes i
      | .error r => .error r

/-- The decoder of the modelled device. -/
def decode (w : Word) : Except Reserved Instr := decodeFor Config.device.nTypes w

/-- The opcode of a command (R114). -/
def Instr.opcode : Instr → Opcode
  | .reset => .reset
  | .tick => .tick
  | .setrate _ => .setrate
  | .setpoly _ _ => .setpoly
  | .wrin _ _ _ => .wrin
  | .wrparam _ _ => .wrparam
  | .wrmod _ _ _ => .wrmod
  | .wrdef _ _ => .wrdef
  | .rdout _ _ => .rdout
  | .rdch _ => .rdch
  | .rdtype => .rdtype
  | .rdsub => .rdsub
  | .rddef _ => .rddef
  | .rdparam _ => .rdparam

/-- The field `A` of a command. -/
def Instr.fieldA : Instr → BitVec 8
  | .reset => 0#8
  | .tick => 0#8
  | .setrate _ => 0#8
  | .setpoly side _ => side.byte
  | .wrin side _ _ => side.byte
  | .wrparam slot _ => slot.byte
  | .wrmod parameter _ _ => byteOfFin parameter
  | .wrdef type _ => type
  | .rdout side _ => side.byte
  | .rdch side => side.byte
  | .rdtype => 0#8
  | .rdsub => 0#8
  | .rddef type => type
  | .rdparam slot => slot.byte

/-- The field `B` of a command. -/
def Instr.fieldB : Instr → BitVec 8
  | .reset => 0#8
  | .tick => 0#8
  | .setrate _ => 0#8
  | .setpoly _ _ => 0#8
  | .wrin _ channel _ => byteOfFin channel
  | .wrparam _ _ => 0#8
  | .wrmod _ source _ => byteOfFin source
  | .wrdef _ _ => 0#8
  | .rdout _ channel => byteOfFin channel
  | .rdch _ => 0#8
  | .rdtype => 0#8
  | .rdsub => 0#8
  | .rddef _ => 0#8
  | .rdparam _ => 0#8

/-- The field `DATA` of a command; an integer operand in 32-bit two's complement (R113). -/
def Instr.fieldData : Instr → BitVec 32
  | .reset => 0#32
  | .tick => 0#32
  | .setrate rate => rate
  | .setpoly _ count => BitVec.ofInt 32 count
  | .wrin _ _ voltage => voltage
  | .wrparam _ data => data
  | .wrmod _ _ value => value
  | .wrdef _ subtype => BitVec.ofInt 32 subtype
  | .rdout _ _ => 0#32
  | .rdch _ => 0#32
  | .rdtype => 0#32
  | .rdsub => 0#32
  | .rddef _ => 0#32
  | .rdparam _ => 0#32

/-- The word of a command (R111, R115). -/
def encode (i : Instr) : Word :=
  Fields.word { op := i.opcode.byte, a := i.fieldA, b := i.fieldB, z := 0#8, data := i.fieldData }

/-- The command that the decoder reads from an instruction of `nbits` bits, `w` numbered as the opcode table numbers
them. Every command is one word of 64 bits (R110): bits above `nbits` are zero, and a longer pattern is no command. -/
def decodeTableWord (nbits w : Nat) : Option Instr :=
  if w % 2 ^ nbits < 2 ^ 64 then (decode (BitVec.ofNat 64 (w % 2 ^ nbits))).toOption else none

end Sys2Proof
end

