-- ==== Sys2Proof/Machine/Params.lean ====
section
/-! DEFINITION. The open parameters and configuration functions as the machine uses them: legal values (R10) and frame
conditions (R185, R189, R206) hold by construction (log 4, 5, 8, 9, 21, 22). -/

namespace Sys2Proof

namespace Config

variable {c : Config}

/-- `FS0`, finite and greater than zero (R10): any raw value that is not becomes 1.0. -/
def fs0 (c : Config) : F :=
  if Float32.isFinitePos c.choices.fs0Raw then c.choices.fs0Raw else 0x3F800000#32

/-- The number of subtypes that the selector of type `t` is clamped to, `max(NSUB(t), 1)` (R201). -/
def subtypes (c : Config) (t : Nat) : Nat := max (c.choices.nSub t) 1

/-- `fmul` of the configuration (R16): a NaN result is quiet and otherwise free (log 6). -/
def fmul (c : Config) (a b : F) : F := Float32.mul (Float32.quietNaN (c.choices.nanMul a b)) a b

/-- `fadd` of the configuration (R16). -/
def fadd (c : Config) (a b : F) : F := Float32.add (Float32.quietNaN (c.choices.nanAdd a b)) a b

/-- `fdiv` of the configuration (R16). -/
def fdiv (c : Config) (a b : F) : F := Float32.div (Float32.quietNaN (c.choices.nanDiv a b)) a b

/-- The finite value nearest to `1 / x`, for `1 / IN_SCALE` of R10: the rounded quotient, or the greatest finite magnitude
where the quotient overflows (log 5). -/
def reciprocal (c : Config) (x : F) : F :=
  let r := c.fdiv 0x3F800000#32 x
  if Float32.isFinite r then r else Float32.withSign (Float32.sign x) 0x7F7FFFFF

/-- `IN_SCALE`, finite and nonzero (R10): any raw value that is not becomes 1.0. -/
def inScale (c : Config) : F :=
  if Float32.isFiniteNonzero c.choices.inScaleRaw then c.choices.inScaleRaw else 0x3F800000#32

/-- The legal values of `OUT_SCALE` (R10): finite, nonzero, of the sign of `IN_SCALE`, and equal to `1 / IN_SCALE` within
the tolerance of the configuration, counted from the nearest finite value; a power of two only as the exact reciprocal of
a power of two, since the round trip is exact for two powers of two (R237, D6; log 5). -/
def outScaleLegal (c : Config) (x : F) : Bool :=
  let r := c.reciprocal c.inScale
  Float32.isFiniteNonzero x && Float32.sign x == Float32.sign c.inScale &&
    decide ((Float32.units x - Float32.units r).natAbs ≤ c.choices.scaleTolerance * Float32.ulp r) &&
    (!(Float32.isPowerOfTwo c.inScale && Float32.isPowerOfTwo x) || x == r)

/-- `OUT_SCALE` (R10): any raw value that is not legal becomes the finite value nearest to `1 / IN_SCALE`. -/
def outScale (c : Config) : F :=
  if c.outScaleLegal c.choices.outScaleRaw then c.choices.outScaleRaw else c.reciprocal c.inScale

/-- A filter function that does not reach `RAMP` (R24, R70; log 22): it is shown `ZERO` in its place, so that nothing it
returns depends on it, and what it leaves there is put back (R206 (c)). R206 (a), (b) and (d) hold by the type: a total
function of `(GS[g], x)` alone whose write pointers and delay indices cannot leave their range. -/
def guardFilter (f : c.GS → Vec4 → c.GS × Vec4) (gs : c.GS) (x : Vec4) : c.GS × Vec4 :=
  let r := f { gs with ramp := Vector.replicate _ zero4 } x
  ({ r.1 with ramp := gs.ramp }, r.2)

/-- `FilterFn(t, s)`: `none`, or a function that keeps its frame conditions (R203, R206). -/
def filterFn (c : Config) (t s : Nat) : Option (c.GS → Vec4 → c.GS × Vec4) :=
  (c.choices.filterTable t s).map guardFilter

/-- `CoefTarget` (R184), a total function of its inputs. -/
def coefTarget (c : Config) (inputs : CoefInputs c.nCoef) : Ctx c.nCoef := c.choices.coefTarget inputs

/-- `LaneUpdate(ctx, gs, l)` (R185): it writes lane `l` of `COEF` and `RAMP`, with values that depend on the context only
and so are the same for every lane (R183, R194 (b); log 21), and may write any register; nothing else. It reads `REG`, `COEF` and
`RAMP` at most (R70, R72). -/
def laneUpdate (ctx : Ctx c.nCoef) (gs : c.GS) (l : LaneIx) : c.GS :=
  { gs with
    reg := c.choices.laneReg ctx gs.reg gs.coef gs.ramp l
    coef := Vector.ofFn fun i => gs.coef[i].set l (c.choices.laneCoef ctx i)
    ramp := Vector.ofFn fun i => gs.ramp[i].set l (c.choices.laneRamp ctx i) }

/-- One coefficient of `Interp`: a zero trajectory moves nothing (R189). -/
def interpValue (c : Config) (i : Fin c.nCoef) (coef ramp : F) : F :=
  if ramp = zeroF then coef else c.choices.interpStep i coef ramp

/-- `Interp` (R189): it changes `COEF` only, each element from itself and its own ramp. -/
def interp (gs : c.GS) : c.GS :=
  { gs with
    coef := Vector.ofFn fun i => Vector.ofFn fun l => c.interpValue i gs.coef[i][l] gs.ramp[i][l] }

end Config

end Sys2Proof
end

