-- ==== Sys2Proof/Machine/State.lean ====
section
/-! DEFINITION. The state of the block (10_state.md), its reset value (R55), and the reasons a step can stop. -/

namespace Sys2Proof.Machine

/-- The architectural state of the block at a configuration: one fixed record (R20), plain data. -/
structure Block (c : Config) where
  /-- `GS[g]` and `DB[g]` (R21, R71). -/
  groups : Vector c.GS 8
  /-- `SNAP[g][r]`, the snapshot cache (R29). -/
  snap : Vector (Vector Vec4 c.nReg) 8
  /-- `ALLOC[side][v]`, the Allocation Table: a global slot, or `none` for the sentinel -1 (R30, R103). -/
  alloc : PerSide (Vector (Option Slot) 16)
  /-- `N_VOICES` (R31). -/
  nVoices : Nat
  /-- `N_SIMD` (R31). -/
  nSimd : Nat
  /-- `LAST_POLY[side]`, -2 for never observed (R32). -/
  lastPoly : PerSide Int
  /-- `CUR_TYPE`, -1 for nothing selected (R34). -/
  curType : Int
  /-- `CUR_SUB`, -1 for nothing selected (R34). -/
  curSub : Int
  /-- `FN`: `none`, or the key in the strategy table of the resolved function (R35; log 7). -/
  fn : Option (Nat × Nat)
  /-- `DEFSUB[t]`, the Default Subtype Memory (R36). -/
  defsub : Vector Nat c.nTypes
  /-- `FS[g]`, the sample rate of each computation context (R37). -/
  fs : Vector F 8
  /-- `POS`, the position in the current block (R41). -/
  pos : Nat
  /-- `POLY[side]`, the polyphony port (R42). -/
  poly : PerSide Int
  /-- `VIN[side][v]`, the input voltages (R43). -/
  vin : PerSide (Vector F 16)
  /-- `PARAM[p]`, the parameter slots (R44). -/
  param : ParamSlots
  /-- `MOD[p][s]`, the modulation inputs (R45). -/
  mods : ModTable
  /-- `VOUT[side][v]`, the output voltages (R46). -/
  vout : PerSide (Vector F 16)
  /-- `OUTCH[side]`, the output channel counts (R47). -/
  outch : PerSide Nat
deriving DecidableEq, Repr

/-- `GS[g]` and `DB[g]` after reset (R55): all zero. -/
def Block.resetGroup (c : Config) : c.GS where
  reg := Vector.replicate _ zero4
  coef := Vector.replicate _ zero4
  ramp := Vector.replicate _ zero4
  wp := Vector.replicate 4 0
  active := 0#4
  db := Vector.replicate 4 (Vector.replicate _ zeroF)

/-- The block after reset, component by component from the table of R55. -/
def Block.reset (c : Config) : Block c where
  groups := Vector.replicate 8 (Block.resetGroup c)
  snap := Vector.replicate 8 (Vector.replicate _ zero4)
  alloc := .both (Vector.replicate 16 none)
  nVoices := 0
  nSimd := 0
  lastPoly := .both (-2)
  curType := -1
  curSub := -1
  fn := none
  defsub := Vector.replicate _ 0
  fs := Vector.replicate 8 c.fs0
  pos := c.blockSize
  poly := .both (-1)
  vin := .both (Vector.replicate 16 zeroF)
  param := ⟨Vector.replicate 5 zeroF, 0, 0⟩
  mods := Vector.replicate 5 (Vector.replicate 4 zeroF)
  vout := .both (Vector.replicate 16 zeroF)
  outch := .both 1

/-- The state of the machine: the block, and the two sides of its command port (R250, R251), which are the model's own
fields. -/
structure State where
  /-- The block of the modelled device. -/
  block : Block Config.device
  /-- The command words that the host has presented and the block has not taken, first one first (R250; log 1). -/
  cmds : List Word
  /-- The response of the last command, `none` if it produced none (R251; log 2). -/
  resp : Option Resp
deriving DecidableEq, Repr

/-- The machine right after reset: R55, no command presented and no response. -/
def State.reset : State := ⟨Block.reset Config.device, [], none⟩

/-- The reasons for a fault: there is none. The hardware raises no exception, takes no trap and has no fault state
(R290). -/
inductive Fault where
deriving DecidableEq, Repr

/-- The reasons for a refusal. -/
inductive Refusal where
  /-- Raised by an arm of `exec` whose instruction has no meaning yet; none is left. Safe: nothing is claimed. -/
  | notModelled (mnemonic : String)
  /-- Raised by `step` on a reserved command word and by a meaning on an operand outside its legal range: the spec gives
  such a word no meaning, it is not stepped and its state does not change (R128, R308, U7; log 12). Safe: nothing is
  claimed of such a word. -/
  | reserved (why : Reserved)
deriving DecidableEq, Repr

/-- The outcome of a step. -/
abbrev Outcome := Host.Outcome State Fault Refusal

end Sys2Proof.Machine
end

