-- ==== Sys2Proof/Machine/Ops.lean ====
section
/-! DEFINITION. The named operations on the state: integer helpers (R15), lane addresses (R74, R102), the loops over
groups, lanes and channels (R18), group and delay-buffer access, and the command port (R250, R251). The hardware takes
no exception and returns from none (R290, R298, R299), so there is no operation for either. -/

namespace Sys2Proof.Machine

/-- `ceil_div(a, b)` (R15). -/
def ceilDiv (a b : Nat) : Nat := (a + b - 1) / b

/-- `clamp(v, lo, hi)` (R15). -/
def clamp (v lo hi : Int) : Int := max lo (min v hi)

/-- The group of a global slot, `q div 4` (R74, R102). -/
def slotGroup (q : Slot) : GroupIx := ⟨q.val / 4, by omega⟩

/-- The lane of a global slot, `q mod 4` (R74, R102). -/
def slotLane (q : Slot) : LaneIx := ⟨q.val % 4, by omega⟩

/-- `for g in 0..N_GROUPS-1`, in ascending order (R18). -/
def forGroups {α : Type} (a : α) (f : α → GroupIx → α) : α := [0, 1, 2, 3, 4, 5, 6, 7].foldl f a

/-- `for l in 0..3`, in ascending order (R18). -/
def forLanes {α : Type} (a : α) (f : α → LaneIx → α) : α := [0, 1, 2, 3].foldl f a

/-- `for v in 0..MAX_POLY-1`, in ascending order (R18). -/
def forChannels {α : Type} (a : α) (f : α → Channel → α) : α :=
  [0, 1, 2, 3, 4, 5, 6, 7, 8, 9, 10, 11, 12, 13, 14, 15].foldl f a

/-- The value of one global slot in per-group lane vectors. -/
def laneGet (t : Vector Vec4 8) (q : Slot) : F := t[slotGroup q][slotLane q]

/-- Per-group lane vectors with the value of one global slot replaced. -/
def laneSet (t : Vector Vec4 8) (q : Slot) (x : F) : Vector Vec4 8 :=
  t.set (slotGroup q) (t[slotGroup q].set (slotLane q) x)

/-- `MemRead(DB[g][l], i)` (R18, R72). -/
def delayRead {a b n : Nat} (gs : GroupState a b n) (l : LaneIx) (i : Fin n) : F := gs.db[l][i]

/-- `MemWrite(DB[g][l], i, v)` (R18, R72). -/
def delayWrite {a b n : Nat} (gs : GroupState a b n) (l : LaneIx) (i : Fin n) (v : F) : GroupState a b n :=
  { gs with db := gs.db.set l (gs.db[l].set i v) }

namespace Block

variable {c : Config}

/-- The block with the state of one group replaced. -/
def setGroup (b : Block c) (g : GroupIx) (gs : c.GS) : Block c := { b with groups := b.groups.set g gs }

/-- `ALLOC[side][v]`. -/
def entry (b : Block c) (sd : Side) (v : Channel) : Option Slot := (b.alloc.get sd)[v]

/-- Voice `(side, v)` is carried: `v < LAST_POLY[side]` (R228, R232, R238). -/
abbrev Carried (b : Block c) (sd : Side) (v : Channel) : Prop := (v.val : Int) < b.lastPoly.get sd

end Block

namespace State

/-- The command port takes the first word that the host presents (R250): the word, and the state without it. -/
def fetch (s : State) : Option (Word × State) :=
  match s.cmds with
  | [] => none
  | w :: rest => some (w, { s with cmds := rest })

/-- The state after a command that produces no response (R251). -/
def wrote (s : State) (b : Block Config.device) : State := { s with block := b, resp := none }

/-- The state after a read command: only its response is new (R79, R251). -/
def answered (s : State) (v : Resp) : State := { s with resp := some v }

end State

/-- A command whose operands are checked: the next state, or a refusal that names the operand out of range (R128). -/
def accept (why : Option Reserved) (s : State) : Outcome :=
  match why with
  | none => .next s
  | some r => .refused (.reserved r)

end Sys2Proof.Machine
end

