-- ==== Sys2Proof/Machine/Store.lean ====
section
/-! DEFINITION. The Filter State Store's procedures FRESET, SNAP and RESTORE (41_filter_state_store.md). -/

namespace Sys2Proof.Machine

/-- What `FRESET` does to one group (R161): everything of R21 but the delay buffers (R73, R163). -/
def clearGroup {a b n : Nat} (gs : GroupState a b (n + 1)) : GroupState a b (n + 1) :=
  { gs with
    reg := Vector.replicate _ zero4
    coef := Vector.replicate _ zero4
    ramp := Vector.replicate _ zero4
    wp := Vector.replicate 4 0
    active := 0#4 }

namespace Block

variable {c : Config}

/-- `FRESET` (R161): all groups, and the snapshot caches. -/
def freset (b : Block c) : Block c :=
  { b with
    groups := b.groups.map clearGroup
    snap := Vector.replicate 8 (Vector.replicate _ zero4) }

/-- `SNAP(g)` (R164). -/
def snapshot (b : Block c) (g : GroupIx) : Block c := { b with snap := b.snap.set g b.groups[g].reg }

/-- `RESTORE(g)` (R165). -/
def restore (b : Block c) (g : GroupIx) : Block c := b.setGroup g { b.groups[g] with reg := b.snap[g] }

end Block

end Sys2Proof.Machine
end

