-- ==== Sys2Proof/Machine/Allocator.lean ====
section
/-! DEFINITION. The Voice Allocator, procedure VALLOC (40_voice_allocator.md). -/

namespace Sys2Proof.Machine

/-- One side of an empty Allocation Table (R141). -/
def noVoices : Vector (Option Slot) 16 := Vector.replicate 16 none

/-- Single-side packing: voice `v` holds slot `v` for `v < p` (R143). -/
def sequential (p : Int) : Vector (Option Slot) 16 :=
  Vector.ofFn fun v => if (v.val : Int) < p then some ⟨v.val, by omega⟩ else none

/-- Stereo-stacked packing of the left side: voice `p` holds slot `2p` for `p < m` (R144). -/
def stackedLeft (m : Int) : Vector (Option Slot) 16 :=
  Vector.ofFn fun v => if (v.val : Int) < m then some ⟨2 * v.val, by omega⟩ else none

/-- Stereo-stacked packing of the right side: voice `p` holds slot `2p + 1` for `p < m` (R144). -/
def stackedRight (m : Int) : Vector (Option Slot) 16 :=
  Vector.ofFn fun v => if (v.val : Int) < m then some ⟨2 * v.val + 1, by omega⟩ else none

/-- The Allocation Table of two polyphony counts, rebuilt from nothing (R141 to R144, R147). -/
def allocTable (pl pr : Int) : PerSide (Vector (Option Slot) 16) :=
  if pl = -1 ∧ pr = -1 then ⟨noVoices, noVoices⟩
  else if pr = -1 then ⟨sequential pl, noVoices⟩
  else if pl = -1 then ⟨noVoices, sequential pr⟩
  else ⟨stackedLeft (max pl pr), stackedRight (max pl pr)⟩

/-- `nVoices` of two polyphony counts (R142 to R144, R147). -/
def allocVoices (pl pr : Int) : Nat :=
  if pl = -1 ∧ pr = -1 then 0
  else if pr = -1 then pl.toNat
  else if pl = -1 then pr.toNat
  else 2 * (max pl pr).toNat

/-- `VALLOC(pl, pr)` (R147): the table, `N_VOICES`, `N_SIMD`, then the full reset (R146). -/
def Block.valloc {c : Config} (b : Block c) (pl pr : Int) : Block c :=
  ({ b with
      alloc := allocTable pl pr
      nVoices := allocVoices pl pr
      nSimd := ceilDiv (allocVoices pl pr) 4 } : Block c).freset

end Sys2Proof.Machine
end

