-- ==== Sys2Proof/Machine/Flags.lean ====
section
/-! DEFINITION. The conditions that steer control flow (R39). The hardware has no condition codes: each is a function of
the state. The stored lane mask `ACTIVE` of R39 (d) is a field of the group state (R26). -/

namespace Sys2Proof.Machine.Block

variable {c : Config}

/-- `connected(side)`: `LAST_POLY[side] ≥ 0` (R39 (a)). -/
def connected (b : Block c) (sd : Side) : Bool := decide (0 ≤ b.lastPoly.get sd)

/-- The resolved processing function, the value of `FN` (R35). -/
def resolved (b : Block c) : Option (c.GS → Vec4 → c.GS × Vec4) :=
  match b.fn with
  | none => none
  | some key => c.filterFn key.1 key.2

/-- `bypass`: no function is resolved (R39 (b)). -/
def bypass (b : Block c) : Bool := b.resolved.isNone

/-- `at_boundary`: `POS ≥ BLOCK_SIZE` (R39 (c), R222). -/
def atBoundary (b : Block c) : Bool := decide (c.blockSize ≤ b.pos)

/-- The phases of the block between two commands (R40). The third one, reconfiguring, is passed through inside a boundary
tick. -/
inductive Phase where
  | idleAtBoundary
  | streaming
deriving DecidableEq, Repr

/-- The phase (R40), a function of the position. -/
def phase (b : Block c) : Phase := if b.atBoundary then .idleAtBoundary else .streaming

end Sys2Proof.Machine.Block
end

