-- ==== Sys2Proof/Machine/Scheduler.lean ====
section
/-! DEFINITION. The Coefficient Scheduler, procedures CSCHED and CINTERP, and the sample-rate change
(42_coefficient_scheduler.md). -/

namespace Sys2Proof.Machine.Block

variable {c : Config}

/-- Step 2: lane 0 of every coefficient of a group (R183). -/
def laneZero (b : Block c) (g : GroupIx) : Vector F c.nCoef := b.groups[g].coef.map fun v => v[0]

/-- The arguments of `CoefTarget` for a group, as they stand (R184). -/
def coefInputs (b : Block c) (g : GroupIx) : CoefInputs c.nCoef where
  sharedCfg := c.choices.sharedCfg
  type := b.curType
  subtype := b.curSub
  param := b.param
  mods := b.mods
  group := g
  sampleRate := b.fs[g]
  blockSize := c.blockSize
  start := b.laneZero g

/-- Step 4: the per-lane state update, lanes 0 to 3 in order (R185). -/
def laneUpdates (b : Block c) (ctx : Ctx c.nCoef) (g : GroupIx) : Block c :=
  b.setGroup g (forLanes b.groups[g] fun gs l => Config.laneUpdate ctx gs l)

/-- The five steps of the scheduler for one group (R181): snapshot, load and compute, update, restore. -/
def scheduleGroup (b : Block c) (g : GroupIx) : Block c :=
  let b₁ := b.snapshot g
  let ctx := c.coefTarget (b₁.coefInputs g)
  (b₁.laneUpdates ctx g).restore g

/-- `CSCHED` (R180, R181): every group, in use or not. -/
def csched (b : Block c) : Block c := forGroups b scheduleGroup

/-- `CINTERP(g)` (R189). -/
def cinterp (b : Block c) (g : GroupIx) : Block c := b.setGroup g (Config.interp b.groups[g])

/-- The sample-rate change (R188): the rate of every group's context, nothing else. -/
def setRate (b : Block c) (rate : F) : Block c := { b with fs := Vector.replicate 8 rate }

end Sys2Proof.Machine.Block
end

