-- ==== Sys2Proof/Machine/Selector.lean ====
section
/-! DEFINITION. The Filter Dispatcher, procedures SELCHK, RESOLVE and DISPATCH (43_filter_dispatcher.md). -/

namespace Sys2Proof.Machine

/-- A clamped selector is below its bound. -/
theorem clamp_lt (v : Int) (n : Nat) : (clamp v 0 n).toNat < n + 1 := by
  unfold clamp; omega

namespace Block

variable {c : Config}

/-- `t = clamp(PARAM[5], 0, N_TYPES - 1)` (R201). -/
def selectedType (b : Block c) : Fin c.nTypes := ⟨(clamp b.param.type 0 c.nTypesPred).toNat, clamp_lt _ _⟩

/-- `s = clamp(PARAM[6], 0, max(NSUB(t), 1) - 1)` (R201). -/
def selectedSub (b : Block c) : Nat :=
  (clamp b.param.subtype 0 (c.subtypes b.selectedType.val - 1 : Nat)).toNat

/-- The boundary sees a change of the pair (R202). -/
abbrev PairChanged (b : Block c) : Prop :=
  (b.selectedType.val : Int) ≠ b.curType ∨ (b.selectedSub : Int) ≠ b.curSub

/-- `RESOLVE` (R203): `FN <- FilterFn(CUR_TYPE, CUR_SUB)`, kept as the key of the function (R35). -/
def resolve (b : Block c) : Block c :=
  { b with
    fn := if (c.filterFn b.curType.toNat b.curSub.toNat).isSome then some (b.curType.toNat, b.curSub.toNat) else none }

/-- The "remember" steps (R202): the pair is latched and the type's default subtype is written. -/
def latchPair (b : Block c) (t : Fin c.nTypes) (sub : Nat) : Block c :=
  { b with
    curType := (t.val : Int)
    curSub := (sub : Int)
    defsub := b.defsub.set t sub }

/-- `SELCHK` (R209): steps 1 to 4 of the boundary. -/
def selchk (b : Block c) : Block c :=
  let b₁ := if b.PairChanged then b.freset else b
  (b₁.latchPair b.selectedType b.selectedSub).resolve

/-- `DISPATCH(g)` (R205): the group's state and its output vector. Without a resolved function the input is copied and the
state is not touched. -/
def dispatch (b : Block c) (inp : Vector Vec4 8) (out : Vector Vec4 8) (g : GroupIx) : Block c × Vector Vec4 8 :=
  match b.resolved with
  | none => (b, out.set g inp[g])
  | some f => (b.setGroup g (f b.groups[g] inp[g]).1, out.set g (f b.groups[g] inp[g]).2)

end Block

end Sys2Proof.Machine
end

