-- ==== Sys2Proof/Machine/Processor.lean ====
section
/-! DEFINITION. The Block Processor: the tick, BOUNDARY, GATHER, the group loop and SCATTER (44_block_processor.md). -/

namespace Sys2Proof.Machine.Block

variable {c : Config}

/-- The boundary sees a change of polyphony (R224). -/
abbrev PolyChanged (b : Block c) : Prop :=
  b.poly.get .left ≠ b.lastPoly.get .left ∨ b.poly.get .right ≠ b.lastPoly.get .right

/-- Step 5 of the boundary (R223, R224): a changed polyphony is latched and the allocator runs on it. -/
def checkPoly (b : Block c) : Block c :=
  if b.PolyChanged then
    ({ b with lastPoly := b.poly } : Block c).valloc (b.poly.get .left) (b.poly.get .right)
  else b

/-- `BOUNDARY` (R223). -/
def boundary (b : Block c) : Block c := { b.selchk.checkPoly.csched with pos := 0 }

/-- One carried voice's input, converted, in its lane (R227, R228). -/
def gatherVoice (b : Block c) (sd : Side) (inp : Vector Vec4 8) (v : Channel) : Vector Vec4 8 :=
  if b.Carried sd v then
    match b.entry sd v with
    | some q => laneSet inp q (c.fmul (b.vin.get sd)[v] c.inScale)
    | none => inp
  else inp

/-- `GATHER` (R228): silence everywhere (R229), then the left side's voices, then the right side's. -/
def gather (b : Block c) : Vector Vec4 8 :=
  let silence := Vector.replicate 8 zero4
  forChannels (forChannels silence (b.gatherVoice .left)) (b.gatherVoice .right)

/-- The body of the group loop (R221, R230): `CINTERP(g)`, `DISPATCH(g)` for a group in use. -/
def runGroup (inp : Vector Vec4 8) (p : Block c × Vector Vec4 8) (g : GroupIx) : Block c × Vector Vec4 8 :=
  if g.val < p.1.nSimd then (p.1.cinterp g).dispatch inp p.2 g else p

/-- The group loop: the state after it and the output vectors. `OUT` of a group not in use is never read (R230);
the temporary starts as silence (log 14). -/
def runGroups (b : Block c) (inp : Vector Vec4 8) : Block c × Vector Vec4 8 :=
  forGroups (b, Vector.replicate 8 zero4) (runGroup inp)

/-- The output voltage of a voice (R231, R232). -/
def voiceOut (b : Block c) (out : Vector Vec4 8) (sd : Side) (v : Channel) : F :=
  if b.Carried sd v then
    match b.entry sd v with
    | some q => c.fmul (laneGet out q) c.outScale
    | none => zeroF
  else zeroF

/-- `SCATTER` (R232, R233): all 32 output voltages and both channel counts. -/
def scatter (b : Block c) (out : Vector Vec4 8) : Block c :=
  { b with
    vout := .build fun sd => Vector.ofFn fun v => b.voiceOut out sd v
    outch := .build fun sd => (max (b.lastPoly.get sd) 1).toNat }

/-- The boundary part of a tick (R222). -/
def atBlockStart (b : Block c) : Block c := if b.atBoundary then b.boundary else b

/-- The per-sample path (R226) of a block whose boundary work is done. -/
def sample (b : Block c) : Block c :=
  let r := b.runGroups b.gather
  { r.1.scatter r.2 with pos := r.1.pos + 1 }

/-- One tick (R221). -/
def tick (b : Block c) : Block c := b.atBlockStart.sample

end Sys2Proof.Machine.Block
end

