-- ==== Sys2Proof/Machine/Control.lean ====
section
/-! DEFINITION. The control commands RESET, TICK and SETRATE (45_host_commands.md section 2). -/

namespace Sys2Proof.Machine

/-- RESET (R252): every component takes its reset value. The host's further commands stay presented (log 1). -/
def execReset (s : State) : Outcome := .next (s.wrote (Block.reset Config.device))

/-- TICK (R253). -/
def execTick (s : State) : Outcome := .next (s.wrote s.block.tick)

/-- SETRATE rate (R254). -/
def execSetrate (rate : F) (s : State) : Outcome :=
  accept ((Instr.setrate rate).checkFor Config.device.nTypes) (s.wrote (s.block.setRate rate))

end Sys2Proof.Machine
end

