-- ==== Sys2Proof/Machine/Operands.lean ====
section
/-! DEFINITION. The operand readings of R113 and the response patterns of R116: port registers and parameter slots, read
and written by the commands. -/

namespace Sys2Proof.Machine

/-- The response of an integer: its 32-bit two's-complement pattern (R116). -/
def intResp (n : Int) : Resp := BitVec.ofInt 32 n

/-- `PARAM[A] <- f32(DATA)` for slots 0 to 4, `PARAM[A] <- sint(DATA)` for slots 5 and 6 (R113, R257). -/
def writeSlot (p : ParamSlots) (slot : ParamSlot) (data : BitVec 32) : ParamSlots :=
  match slot with
  | .freq => { p with scalars := p.scalars.set 0 data }
  | .res => { p with scalars := p.scalars.set 1 data }
  | .inGain => { p with scalars := p.scalars.set 2 data }
  | .mix => { p with scalars := p.scalars.set 3 data }
  | .outGain => { p with scalars := p.scalars.set 4 data }
  | .type => { p with type := data.toInt }
  | .subtype => { p with subtype := data.toInt }

/-- The response of a slot: `bits32(PARAM[A])` for slots 0 to 4, the two's-complement pattern for slots 5 and 6
(R265). -/
def readSlot (p : ParamSlots) (slot : ParamSlot) : Resp :=
  match slot with
  | .freq => p.scalars[0]
  | .res => p.scalars[1]
  | .inGain => p.scalars[2]
  | .mix => p.scalars[3]
  | .outGain => p.scalars[4]
  | .type => intResp p.type
  | .subtype => intResp p.subtype

/-- One entry of a side's sixteen channels replaced. -/
def setChannel (t : PerSide (Vector F 16)) (sd : Side) (v : Channel) (x : F) : PerSide (Vector F 16) :=
  t.set sd ((t.get sd).set v x)

end Sys2Proof.Machine
end

