-- ==== Sys2Proof/Machine/Read.lean ====
section
/-! DEFINITION. The read commands RDOUT, RDCH, RDTYPE, RDSUB, RDDEF and RDPARAM (45_host_commands.md section 4). None
changes the block (R79). -/

namespace Sys2Proof.Machine

/-- RDOUT side, channel (R260): `resp <- bits32(VOUT[A][B])`. -/
def execRdout (side : Side) (channel : Channel) (s : State) : Outcome :=
  .next (s.answered (s.block.vout.get side)[channel])

/-- RDCH side (R261): `resp <- OUTCH[A]`. -/
def execRdch (side : Side) (s : State) : Outcome := .next (s.answered (intResp (s.block.outch.get side)))

/-- RDTYPE (R262): `resp <- CUR_TYPE`. -/
def execRdtype (s : State) : Outcome := .next (s.answered (intResp s.block.curType))

/-- RDSUB (R263): `resp <- CUR_SUB`. -/
def execRdsub (s : State) : Outcome := .next (s.answered (intResp s.block.curSub))

/-- RDDEF type (R264): `resp <- DEFSUB[A]`; the type is in range where the command is accepted. -/
def execRddef (type : BitVec 8) (s : State) : Outcome :=
  accept ((Instr.rddef type).checkFor Config.device.nTypes)
    (s.answered (intResp ((s.block.defsub[type.toNat]?.getD 0 : Nat) : Int)))

/-- RDPARAM slot (R265): the pattern last written by WRPARAM, unclamped. -/
def execRdparam (slot : ParamSlot) (s : State) : Outcome :=
  .next (s.answered (readSlot s.block.param slot))

end Sys2Proof.Machine
end

