-- ==== Sys2Proof/Machine/Write.lean ====
section
/-! DEFINITION. The write commands SETPOLY, WRIN, WRPARAM, WRMOD and WRDEF (45_host_commands.md section 3). -/

namespace Sys2Proof.Machine

/-- SETPOLY side, count (R255): `POLY[A] <- sint(DATA)`. -/
def execSetpoly (side : Side) (count : Int) (s : State) : Outcome :=
  accept ((Instr.setpoly side count).checkFor Config.device.nTypes)
    (s.wrote { s.block with poly := s.block.poly.set side count })

/-- WRIN side, channel, voltage (R256): `VIN[A][B] <- f32(DATA)`. -/
def execWrin (side : Side) (channel : Channel) (voltage : F) (s : State) : Outcome :=
  .next (s.wrote { s.block with vin := setChannel s.block.vin side channel voltage })

/-- WRPARAM slot, value (R257). -/
def execWrparam (slot : ParamSlot) (data : BitVec 32) (s : State) : Outcome :=
  .next (s.wrote { s.block with param := writeSlot s.block.param slot data })

/-- WRMOD parameter, source, value (R258): `MOD[A][B] <- f32(DATA)`. -/
def execWrmod (parameter : Fin 5) (source : Fin 4) (value : F) (s : State) : Outcome :=
  .next (s.wrote { s.block with mods := s.block.mods.set parameter (s.block.mods[parameter].set source value) })

/-- WRDEF type, subtype (R259): `DEFSUB[A] <- sint(DATA)`; both operands are in range where the command is accepted. -/
def execWrdef (type : BitVec 8) (subtype : Int) (s : State) : Outcome :=
  accept ((Instr.wrdef type subtype).checkFor Config.device.nTypes)
    (s.wrote { s.block with defsub := s.block.defsub.setIfInBounds type.toNat subtype.toNat })

end Sys2Proof.Machine
end

