-- ==== Sys2Proof/Machine/Dispatch.lean ====
section
/-! DEFINITION. The meaning of every command (45_host_commands.md), one arm for each. -/

namespace Sys2Proof.Machine

def exec (i : Instr) (s : State) : Host.Outcome State Fault Refusal :=
  match i with
  | .reset => Sys2Proof.Machine.execReset s
  | .tick => Sys2Proof.Machine.execTick s
  | .setrate rate => Sys2Proof.Machine.execSetrate rate s
  | .setpoly side count => Sys2Proof.Machine.execSetpoly side count s
  | .wrin side channel voltage => Sys2Proof.Machine.execWrin side channel voltage s
  | .wrparam slot data => Sys2Proof.Machine.execWrparam slot data s
  | .wrmod parameter source value => Sys2Proof.Machine.execWrmod parameter source value s
  | .wrdef type subtype => Sys2Proof.Machine.execWrdef type subtype s
  | .rdout side channel => Sys2Proof.Machine.execRdout side channel s
  | .rdch side => Sys2Proof.Machine.execRdch side s
  | .rdtype => Sys2Proof.Machine.execRdtype s
  | .rdsub => Sys2Proof.Machine.execRdsub s
  | .rddef type => Sys2Proof.Machine.execRddef type s
  | .rdparam slot => Sys2Proof.Machine.execRdparam slot s

end Sys2Proof.Machine
end

