-- ==== Sys2Proof/Machine/Step.lean ====
section
/-! DEFINITION. The step of the machine: one command (R250). -/

namespace Sys2Proof.Machine

/-- One step (R250): the port takes the first presented word and the block executes its command to completion. A reserved
word is refused (R128, R308). With no command presented the block does nothing (R250, R323; log 1). -/
def step (s : State) : Host.Outcome State Fault Refusal :=
  match s.fetch with
  | none => .next s
  | some (w, s') =>
    match decode w with
    | .ok i => exec i s'
    | .error r => .refused (.reserved r)

/-- The state in which the host presents the word `w` of `nbits` bits, ahead of whatever it presents already, so that the
next step takes it (log 1). -/
def State.withFetchWord (s : State) (nbits w : Nat) : State :=
  { s with cmds := BitVec.ofNat 64 (w % 2 ^ nbits) :: s.cmds }

end Sys2Proof.Machine
end

