-- ==== Sys2Proof/Safety.lean ====
section
/-! DEFINITION. What holds of every state that a run reaches: the ranges of 10_state.md, the allocator invariants R33, and
the facts that tie cached components to what they cache (R35, R37, R41, R47). -/

namespace Sys2Proof.Machine

/-- A polyphony count that a port can present (R42, R101). -/
abbrev PolyLegal (n : Int) : Prop := -1 ≤ n ∧ n ≤ 16

namespace Block

variable {c : Config}

/-- No boundary has happened since reset: nothing is latched (R32, R34, R55). -/
structure Fresh (b : Block c) : Prop where
  lastPoly : ∀ sd, b.lastPoly.get sd = -2
  alloc : ∀ sd, b.alloc.get sd = noVoices
  nVoices : b.nVoices = 0
  nSimd : b.nSimd = 0
  curType : b.curType = -1
  curSub : b.curSub = -1
  fn : b.fn = none
  pos : b.pos = c.blockSize

/-- A boundary has happened: the table is what the allocator makes of the latched polyphony (R33 (d)), and `FN` is what
the strategy table holds for the latched pair (R35). -/
structure Latched (b : Block c) : Prop where
  lastPoly : ∀ sd, PolyLegal (b.lastPoly.get sd)
  alloc : b.alloc = allocTable (b.lastPoly.get .left) (b.lastPoly.get .right)
  nVoices : b.nVoices = allocVoices (b.lastPoly.get .left) (b.lastPoly.get .right)
  nSimd : b.nSimd = ceilDiv b.nVoices 4
  curType : 0 ≤ b.curType ∧ b.curType < c.nTypes
  curSub : 0 ≤ b.curSub ∧ b.curSub < c.subtypes b.curType.toNat
  fn : b.fn = if (c.filterFn b.curType.toNat b.curSub.toNat).isSome
    then some (b.curType.toNat, b.curSub.toNat) else none
  pos : 1 ≤ b.pos ∧ b.pos ≤ c.blockSize

/-- The invariant of the block. -/
structure Inv (b : Block c) : Prop where
  /-- Nothing latched yet, or everything latched at a boundary. -/
  phase : b.Fresh ∨ b.Latched
  /-- The polyphony ports hold legal counts (R42). -/
  poly : ∀ sd, PolyLegal (b.poly.get sd)
  /-- All groups hold one sample rate (R188), finite and greater than zero. -/
  fs : ∃ rate, Float32.isFinitePos rate ∧ b.fs = Vector.replicate 8 rate
  /-- The channel counts mirror the latched polyphony, at least 1 (R47, R233). -/
  outch : ∀ sd, (b.outch.get sd : Int) = max (b.lastPoly.get sd) 1
  /-- The selector slots hold 32-bit signed integers (R105). -/
  selectors : (-2 ^ 31 ≤ b.param.type ∧ b.param.type < 2 ^ 31) ∧ (-2 ^ 31 ≤ b.param.subtype ∧ b.param.subtype < 2 ^ 31)
  /-- Every remembered subtype is a 32-bit signed integer that is not negative (R36, R259). -/
  defsub : ∀ (t : Nat) (h : t < c.nTypes), b.defsub[t] < 2 ^ 31

end Block

/-- The invariant of the machine: that of the block. The command port holds what the host presents, any words at all. -/
abbrev State.Inv (s : State) : Prop := s.block.Inv

end Sys2Proof.Machine
end

