-- ==== Sys2Proof/Certificates/Slice0/Obligations.lean ====
section
/-! DEFINITION. The statements for the provers, from the numbered rules of spec/. A statement about the block is made for
every configuration `c`; a statement about `exec` or `step` is made for the modelled device. -/

open Sys2Proof Sys2Proof.Machine

/-! The command word. -/

/-- The decoder gives back every well-formed command from its word, whatever the number of filter types. -/
def Obligations.DecodeOfEncode : Prop :=
  ∀ (n : Nat) (i : Instr), i.WellFormedFor n → decodeFor n (encode i) = .ok i

/-- Every accepted word is the word of the command it decodes to, and that command is well-formed: no two words mean one
command and no bit of an accepted word is ignored. -/
def Obligations.EncodeOfDecode : Prop :=
  ∀ (n : Nat) (w : Word) (i : Instr), decodeFor n w = .ok i → encode i = w ∧ i.WellFormedFor n

/-- A word selects a command exactly when its masked bits are the match value of an opcode and its operands assemble and
are in their legal ranges (R114). -/
def Obligations.WordSelectsCommandByMaskAndMatch : Prop :=
  ∀ (n : Nat) (w : Word) (i : Instr), decodeFor n w = .ok i ↔
    ∃ o : Opcode, w &&& o.format.mask = o.matchWord ∧ assemble o (fieldsOf w) = .ok i ∧ i.WellFormedFor n

/-- R115: the match values, the full word of a command, and the rule's three examples. -/
def Obligations.FullWordIsMatchWithFields : Prop :=
  ([Opcode.reset, .tick, .setrate, .setpoly, .wrin, .wrparam, .wrmod, .wrdef, .rdout, .rdch, .rdtype, .rdsub, .rddef,
      .rdparam].map Opcode.matchWord =
    [0x0100000000000000, 0x0200000000000000, 0x0300000000000000, 0x1000000000000000, 0x1100000000000000,
      0x1200000000000000, 0x1300000000000000, 0x1400000000000000, 0x2000000000000000, 0x2100000000000000,
      0x2200000000000000, 0x2300000000000000, 0x2400000000000000, 0x2500000000000000]) ∧
  (∀ o : Opcode, o.matchWord = o.byte.setWidth 64 <<< 56) ∧
  (∀ i : Instr, encode i =
    i.opcode.matchWord ||| (i.fieldA.setWidth 64 <<< 48) ||| (i.fieldB.setWidth 64 <<< 40) |||
      i.fieldData.setWidth 64) ∧
  encode (.wrin .left 0 0x40000000) = 0x1100000040000000 ∧
  encode (.setpoly .right (-1)) = 0x10010000FFFFFFFF ∧
  encode .tick = 0x0200000000000000

/-- The words that the opcode map and the operand ranges of R114 make legal, written out by opcode, field by field, where
there are `n` filter types. -/
def Sys2Proof.LegalFields (n : Nat) (f : Fields) : Prop :=
  f.z = 0 ∧
  ((f.op = 0x01 ∧ f.a = 0 ∧ f.b = 0 ∧ f.data = 0) ∨
   (f.op = 0x02 ∧ f.a = 0 ∧ f.b = 0 ∧ f.data = 0) ∨
   (f.op = 0x03 ∧ f.a = 0 ∧ f.b = 0 ∧ Sys2Proof.Float32.isFinitePos f.data) ∨
   (f.op = 0x10 ∧ f.a.toNat ≤ 1 ∧ f.b = 0 ∧ -1 ≤ f.data.toInt ∧ f.data.toInt ≤ 16) ∨
   (f.op = 0x11 ∧ f.a.toNat ≤ 1 ∧ f.b.toNat ≤ 15) ∨
   (f.op = 0x12 ∧ f.a.toNat ≤ 6 ∧ f.b = 0) ∨
   (f.op = 0x13 ∧ f.a.toNat ≤ 4 ∧ f.b.toNat ≤ 3) ∨
   (f.op = 0x14 ∧ f.a.toNat < n ∧ f.b = 0 ∧ 0 ≤ f.data.toInt) ∨
   (f.op = 0x20 ∧ f.a.toNat ≤ 1 ∧ f.b.toNat ≤ 15 ∧ f.data = 0) ∨
   (f.op = 0x21 ∧ f.a.toNat ≤ 1 ∧ f.b = 0 ∧ f.data = 0) ∨
   (f.op = 0x22 ∧ f.a = 0 ∧ f.b = 0 ∧ f.data = 0) ∨
   (f.op = 0x23 ∧ f.a = 0 ∧ f.b = 0 ∧ f.data = 0) ∨
   (f.op = 0x24 ∧ f.a.toNat < n ∧ f.b = 0 ∧ f.data = 0) ∨
   (f.op = 0x25 ∧ f.a.toNat ≤ 6 ∧ f.b = 0 ∧ f.data = 0))

/-- R128: a word is accepted exactly when its fields are legal; every other word is reserved, and a step on it refuses. -/
def Obligations.OnlyLegalWordsAreAccepted : Prop :=
  (∀ (n : Nat) (w : Word), (∃ i, decodeFor n w = .ok i) ↔ Sys2Proof.LegalFields n (fieldsOf w)) ∧
  (∀ (s : State) (w : Word) (rest : List Word), s.cmds = w :: rest →
    ¬ Sys2Proof.LegalFields Config.device.nTypes (fieldsOf w) → ∃ r, step s = .refused (.reserved r))

/-- Words written out from the spec's encodings decode to the commands they stand for. -/
def Obligations.SampleWordsDecode : Prop :=
  decodeFor 4 0x03000000473B8000 = .ok (.setrate 0x473B8000) ∧
  decodeFor 4 0x10000000FFFFFFFF = .ok (.setpoly .left (-1)) ∧
  decodeFor 4 0x11010300BF800000 = .ok (.wrin .right 3 0xBF800000) ∧
  decodeFor 4 0x1205000000000002 = .ok (.wrparam .type 2) ∧
  decodeFor 4 0x130003003F000000 = .ok (.wrmod 0 3 0x3F000000) ∧
  decodeFor 4 0x1402000000000001 = .ok (.wrdef 2 1) ∧
  decodeFor 4 0x20010F0000000000 = .ok (.rdout .right 15) ∧
  decodeFor 4 0x2506000000000000 = .ok (.rdparam .subtype)

/-! The step. -/

/-- When the first presented word decodes to a command, the step is that command's meaning at the state whose port has
taken the word (R250). -/
def Obligations.StepRunsDecodedCommand : Prop :=
  ∀ (s : State) (w : Word) (rest : List Word) (i : Instr), s.cmds = w :: rest → decode w = .ok i →
    step s = exec i { s with cmds := rest }

/-- With no command presented a step leaves the state as it is. THE MODEL'S CHOICE (log 1): the spec says that the block
does nothing between commands (R250, R323) and gives no step without a command. -/
def Obligations.StepWaitsWithoutCommand : Prop :=
  ∀ s : State, s.cmds = [] → step s = .next s

/-- A command completes exactly when its operands are legal; otherwise it is refused by the name of the operand, and no
command faults (R290, R128). -/
def Obligations.CommandCompletesExactlyWhenLegal : Prop :=
  ∀ (i : Instr) (s : State),
    (i.WellFormed → ∃ t, exec i s = .next t) ∧
    (∀ r, i.checkFor Config.device.nTypes = some r → exec i s = .refused (.reserved r)) ∧
    (∀ f, exec i s ≠ .fault f)

/-- A read command produces a response and every other command produces none (R251). The model's own bookkeeping (log 1,
log 2): the response stands in `resp`, and no command changes what the host has still presented. -/
def Obligations.OnlyReadCommandsRespond : Prop :=
  ∀ (i : Instr) (s t : State), exec i s = .next t →
    t.cmds = s.cmds ∧
    (t.resp.isSome ↔ i.opcode ∈ [Opcode.rdout, .rdch, .rdtype, .rdsub, .rddef, .rdparam])

/-! Reset. -/

/-- The table of R55, component by component. -/
def Sys2Proof.ResetTable {c : Config} (b : Block c) : Prop :=
  (∀ (g : GroupIx) (r : Fin c.nReg) (l : LaneIx), b.groups[g].reg[r][l] = zeroF) ∧
  (∀ (g : GroupIx) (i : Fin c.nCoef) (l : LaneIx), b.groups[g].coef[i][l] = zeroF ∧ b.groups[g].ramp[i][l] = zeroF) ∧
  (∀ (g : GroupIx) (l : LaneIx), b.groups[g].wp[l].val = 0) ∧
  (∀ g : GroupIx, b.groups[g].active = 0) ∧
  (∀ (g : GroupIx) (l : LaneIx) (i : Fin c.delayLen), b.groups[g].db[l][i] = zeroF) ∧
  (∀ (g : GroupIx) (r : Fin c.nReg) (l : LaneIx), b.snap[g][r][l] = zeroF) ∧
  (∀ (sd : Side) (v : Channel), b.entry sd v = none) ∧
  b.nVoices = 0 ∧ b.nSimd = 0 ∧
  (∀ sd, b.lastPoly.get sd = -2) ∧
  b.curType = -1 ∧ b.curSub = -1 ∧ b.fn = none ∧
  (∀ t : Fin c.nTypes, b.defsub[t] = 0) ∧
  (∀ g : GroupIx, b.fs[g] = c.fs0) ∧
  b.pos = c.blockSize ∧
  (∀ sd, b.poly.get sd = -1) ∧
  (∀ (sd : Side) (v : Channel), (b.vin.get sd)[v] = zeroF) ∧
  (∀ p : Fin 5, b.param.scalars[p] = zeroF) ∧ b.param.type = 0 ∧ b.param.subtype = 0 ∧
  (∀ (p : Fin 5) (k : Fin 4), b.mods[p][k] = zeroF) ∧
  (∀ (sd : Side) (v : Channel), (b.vout.get sd)[v] = zeroF) ∧
  (∀ sd, b.outch.get sd = 1)

/-- R55: the reset state, and the state after the command RESET from any state, hold the value of the table in every
component. -/
def Obligations.ResetValuesAfterConstructionAndReset : Prop :=
  Sys2Proof.ResetTable State.reset.block ∧
  ∀ s : State, ∃ t, exec .reset s = .next t ∧ Sys2Proof.ResetTable t.block

/-! The invariant. -/

/-- The reset state has the invariant of Safety.lean. -/
def Obligations.ResetEstablishesInvariant : Prop := State.reset.Inv

/-- Every step keeps the invariant: from any state that has it, whatever the host presents. -/
def Obligations.StepKeepsInvariant : Prop :=
  ∀ s t : State, s.Inv → step s = .next t → t.Inv

/-- R33 for every state that has the invariant: the group count, no two voices of either side on one slot, every
assigned slot below `N_VOICES`, and the table that the allocator makes of the latched polyphony. -/
def Obligations.AllocatorInvariantsHold : Prop :=
  ∀ (c : Config) (b : Block c), b.Inv →
    b.nSimd = (b.nVoices + 3) / 4 ∧ b.nVoices ≤ 32 ∧ b.nSimd ≤ 8 ∧
    (∀ (sd sd' : Side) (v v' : Channel) (q : Slot), b.entry sd v = some q → b.entry sd' v' = some q →
      sd = sd' ∧ v = v') ∧
    (∀ (sd : Side) (v : Channel) (q : Slot), b.entry sd v = some q → q.val < b.nVoices ∧ (slotGroup q).val < b.nSimd) ∧
    (¬ (b.lastPoly.get .left = -2 ∧ b.lastPoly.get .right = -2) →
      b.alloc = (b.valloc (b.lastPoly.get .left) (b.lastPoly.get .right)).alloc ∧
      b.nVoices = (b.valloc (b.lastPoly.get .left) (b.lastPoly.get .right)).nVoices ∧
      b.nSimd = (b.valloc (b.lastPoly.get .left) (b.lastPoly.get .right)).nSimd)

/-! The control and write commands. -/

/-- TICK completes in every state, without a response (R253). It runs the boundary exactly when the position has reached
the block size, then the sample path (R221, R222, R223), and the position counts the ticks of the block (R235). -/
def Obligations.TickCompletesAndAdvancesPosition : Prop :=
  ∀ s : State, ∃ t, exec .tick s = .next t ∧ t.resp = none ∧ t.block = s.block.tick ∧
    s.block.tick = (if Config.device.blockSize ≤ s.block.pos
      then ({ s.block.selchk.checkPoly.csched with pos := 0 } : Block Config.device).sample else s.block.sample) ∧
    t.block.pos = (if Config.device.blockSize ≤ s.block.pos then 1 else s.block.pos + 1)

/-- SETRATE (R254): a finite rate greater than zero becomes the rate of every group and nothing else changes; any other
pattern is refused. -/
def Obligations.SetrateWritesEveryGroupsRate : Prop :=
  ∀ (s : State) (rate : F),
    (Sys2Proof.Float32.isFinitePos rate → ∃ t, exec (.setrate rate) s = .next t ∧ t.resp = none ∧
      (∀ g : GroupIx, t.block.fs[g] = rate) ∧ t.block = { s.block with fs := t.block.fs }) ∧
    (Sys2Proof.Float32.isFinitePos rate = false → exec (.setrate rate) s = .refused (.reserved .rate))

/-- SETPOLY (R255): a count of -1..16 becomes the side's port and nothing else changes; any other count is refused. -/
def Obligations.SetpolyWritesOnePort : Prop :=
  ∀ (s : State) (sd : Side) (count : Int),
    (-1 ≤ count ∧ count ≤ 16 → ∃ t, exec (.setpoly sd count) s = .next t ∧ t.resp = none ∧
      (∀ sd', t.block.poly.get sd' = if sd' = sd then count else s.block.poly.get sd') ∧
      t.block = { s.block with poly := t.block.poly }) ∧
    (¬ (-1 ≤ count ∧ count ≤ 16) → exec (.setpoly sd count) s = .refused (.reserved .count))

/-- WRIN (R256): the addressed input voltage takes the value, any pattern; every other input voltage and every other
component is unchanged. -/
def Obligations.WrinWritesOneVoltage : Prop :=
  ∀ (s : State) (sd : Side) (v : Channel) (x : F), ∃ t, exec (.wrin sd v x) s = .next t ∧ t.resp = none ∧
    (∀ (sd' : Side) (v' : Channel), (t.block.vin.get sd')[v'] =
      if sd' = sd ∧ v' = v then x else (s.block.vin.get sd')[v']) ∧
    t.block = { s.block with vin := t.block.vin }

/-- WRPARAM (R257): slots 0 to 4 take the pattern, slots 5 and 6 its two's-complement reading, none checked; every other
slot and every other component is unchanged. -/
def Obligations.WrparamWritesOneSlot : Prop :=
  ∀ (s : State) (data : BitVec 32),
    (∀ (slot : ParamSlot) (p : Fin 5), slot.byte = BitVec.ofNat 8 p.val →
      ∃ t, exec (.wrparam slot data) s = .next t ∧ t.resp = none ∧
        (∀ p' : Fin 5, t.block.param.scalars[p'] = if p' = p then data else s.block.param.scalars[p']) ∧
        t.block = { s.block with param := { s.block.param with scalars := t.block.param.scalars } }) ∧
    (∃ t, exec (.wrparam .type data) s = .next t ∧ t.resp = none ∧
      t.block = { s.block with param := { s.block.param with type := data.toInt } }) ∧
    (∃ t, exec (.wrparam .subtype data) s = .next t ∧ t.resp = none ∧
      t.block = { s.block with param := { s.block.param with subtype := data.toInt } })

/-- WRMOD (R258): the addressed modulation input takes the value; every other one and every other component is
unchanged. -/
def Obligations.WrmodWritesOneInput : Prop :=
  ∀ (s : State) (p : Fin 5) (k : Fin 4) (x : F), ∃ t, exec (.wrmod p k x) s = .next t ∧ t.resp = none ∧
    (∀ (p' : Fin 5) (k' : Fin 4), t.block.mods[p'][k'] = if p' = p ∧ k' = k then x else s.block.mods[p'][k']) ∧
    t.block = { s.block with mods := t.block.mods }

/-- WRDEF (R259): for a type below `N_TYPES` and a subtype 0..2147483647 the type's entry takes the subtype and nothing
else changes; any other operand is refused. -/
def Obligations.WrdefWritesOneEntry : Prop :=
  ∀ (s : State) (type : BitVec 8) (subtype : Int),
    (type.toNat < Config.device.nTypes ∧ 0 ≤ subtype ∧ subtype ≤ 2147483647 →
      ∃ t, exec (.wrdef type subtype) s = .next t ∧ t.resp = none ∧
        (∀ k : Fin Config.device.nTypes,
          (t.block.defsub[k] : Int) = if k.val = type.toNat then subtype else s.block.defsub[k]) ∧
        t.block = { s.block with defsub := t.block.defsub }) ∧
    (¬ (type.toNat < Config.device.nTypes ∧ 0 ≤ subtype ∧ subtype ≤ 2147483647) →
      ∃ r, exec (.wrdef type subtype) s = .refused (.reserved r))

/-! The read commands. -/

/-- RDOUT (R260): the response is the addressed output voltage, and the block does not change. -/
def Obligations.RdoutAnswersOutputVoltage : Prop :=
  ∀ (s : State) (sd : Side) (v : Channel), ∃ t, exec (.rdout sd v) s = .next t ∧
    t.resp = some (s.block.vout.get sd)[v] ∧ t.block = s.block

/-- RDCH (R261): the response is the side's channel count as a 32-bit integer, between 1 and 16 in every state with the
invariant, and the block does not change. -/
def Obligations.RdchAnswersChannelCount : Prop :=
  ∀ (s : State) (sd : Side), ∃ t r, exec (.rdch sd) s = .next t ∧ t.resp = some r ∧ t.block = s.block ∧
    r = BitVec.ofNat 32 (s.block.outch.get sd) ∧ (s.Inv → 1 ≤ r.toNat ∧ r.toNat ≤ 16)

/-- RDTYPE (R262) and RDSUB (R263): the responses are the latched type and subtype in two's complement, and the block does
not change. The state is free, but for the range that every latched value has (R34, R201). -/
def Obligations.RdtypeAndRdsubAnswerLatchedPair : Prop :=
  ∀ s : State,
    (∃ t r, exec .rdtype s = .next t ∧ t.resp = some r ∧ t.block = s.block ∧
      r = BitVec.ofInt 32 s.block.curType ∧ (-2 ^ 31 ≤ s.block.curType → s.block.curType < 2 ^ 31 →
        r.toInt = s.block.curType)) ∧
    (∃ t r, exec .rdsub s = .next t ∧ t.resp = some r ∧ t.block = s.block ∧
      r = BitVec.ofInt 32 s.block.curSub ∧ (-2 ^ 31 ≤ s.block.curSub → s.block.curSub < 2 ^ 31 →
        r.toInt = s.block.curSub))

/-- RDDEF (R264): for a type below `N_TYPES` the response is the type's entry as a 32-bit integer and the block does not
change; any other type is refused. -/
def Obligations.RddefAnswersRememberedSubtype : Prop :=
  ∀ (s : State) (type : BitVec 8),
    if h : type.toNat < Config.device.nTypes then
      ∃ t, exec (.rddef type) s = .next t ∧ t.resp = some (BitVec.ofNat 32 s.block.defsub[type.toNat]) ∧
        t.block = s.block
    else exec (.rddef type) s = .refused (.reserved .type)

/-- RDPARAM (R265): the block does not change, and the response is the pattern of the slot. -/
def Obligations.RdparamAnswersSlotPattern : Prop :=
  ∀ s : State,
    (∀ (slot : ParamSlot) (p : Fin 5), slot.byte = BitVec.ofNat 8 p.val →
      ∃ t, exec (.rdparam slot) s = .next t ∧ t.resp = some s.block.param.scalars[p] ∧ t.block = s.block) ∧
    (∃ t, exec (.rdparam .type) s = .next t ∧ t.resp = some (BitVec.ofInt 32 s.block.param.type) ∧
      t.block = s.block) ∧
    (∃ t, exec (.rdparam .subtype) s = .next t ∧ t.resp = some (BitVec.ofInt 32 s.block.param.subtype) ∧
      t.block = s.block)

/-- RDPARAM returns exactly the pattern last written by WRPARAM (R265): right after the write, and after every accepted
command that is neither RESET nor a WRPARAM to the same slot, TICK among them. -/
def Obligations.RdparamReturnsLastWrittenPattern : Prop :=
  (∀ (slot : ParamSlot) (data : BitVec 32) (s t u : State), exec (.wrparam slot data) s = .next t →
    exec (.rdparam slot) t = .next u → u.resp = some data) ∧
  (∀ (slot : ParamSlot) (i : Instr) (s t u v : State), i ≠ .reset → (∀ d, i ≠ .wrparam slot d) →
    exec i s = .next t → exec (.rdparam slot) s = .next u → exec (.rdparam slot) t = .next v → v.resp = u.resp)

/-! Who can change what. -/

/-- The partition of R301: a collaborator's command changes at most `PARAM` and `DEFSUB`, the control path's at most `FS`,
and a command of the real-time thread other than TICK at most `POLY`, `VIN` and `MOD`. -/
def Obligations.IssuersChangeOnlyTheirState : Prop :=
  ∀ (i : Instr) (s t : State), exec i s = .next t →
    (i.issuer = .collaborators → t.block = { s.block with param := t.block.param, defsub := t.block.defsub }) ∧
    (i.issuer = .controlPath → t.block = { s.block with fs := t.block.fs }) ∧
    (i.issuer = .realTimeThread → i ≠ .tick →
      t.block = { s.block with poly := t.block.poly, vin := t.block.vin, mods := t.block.mods })

/-! The Filter State Store. -/

/-- R161: `FRESET` zeroes every register, snapshot, coefficient, ramp, write pointer and active mask of all groups. R163: it
leaves the delay buffers and everything outside the Filter State Store. -/
def Obligations.FullResetZeroesTheStoreAndNothingElse : Prop :=
  ∀ (c : Config) (b : Block c),
    (∀ g : GroupIx,
      (∀ (r : Fin c.nReg), b.freset.groups[g].reg[r] = zero4 ∧ b.freset.snap[g][r] = zero4) ∧
      (∀ (i : Fin c.nCoef), b.freset.groups[g].coef[i] = zero4 ∧ b.freset.groups[g].ramp[i] = zero4) ∧
      (∀ l : LaneIx, b.freset.groups[g].wp[l].val = 0) ∧
      b.freset.groups[g].active = 0 ∧
      b.freset.groups[g].db = b.groups[g].db) ∧
    b.freset = { b with groups := b.freset.groups, snap := b.freset.snap }

/-- R164: `SNAP(g)` copies the register file of the group into its snapshot cache and writes nothing else. -/
def Obligations.SnapshotCopiesRegisterFile : Prop :=
  ∀ (c : Config) (b : Block c) (g g' : GroupIx),
    (b.snapshot g).snap[g'] = (if g' = g then b.groups[g].reg else b.snap[g']) ∧
    b.snapshot g = { b with snap := (b.snapshot g).snap }

/-- R165: `RESTORE(g)` after `SNAP(g)` and any change that leaves the snapshot gives the register file back; it changes the
register file of that group only and leaves the snapshot. -/
def Obligations.RestoreUndoesRegisterWrites : Prop :=
  ∀ (c : Config) (b b' : Block c) (g : GroupIx),
    (b'.snap[g] = (b.snapshot g).snap[g] → (b'.restore g).groups[g].reg = b.groups[g].reg) ∧
    (b'.restore g).groups[g] = { b'.groups[g] with reg := b'.snap[g] } ∧
    (∀ g' : GroupIx, g' ≠ g → (b'.restore g).groups[g'] = b'.groups[g']) ∧
    b'.restore g = { b' with groups := (b'.restore g).groups }

/-- A delay-buffer element reads as last written, and a write changes no other element of the group's state
(R18, R72). -/
def Obligations.DelayBufferReadsAsWritten : Prop :=
  ∀ (nReg nCoef n : Nat) (gs : GroupState nReg nCoef n) (l l' : LaneIx) (i i' : Fin n) (v : F),
    delayRead (delayWrite gs l i v) l' i' = (if l' = l ∧ i' = i then v else delayRead gs l' i') ∧
    delayWrite gs l i v = { gs with db := (delayWrite gs l i v).db }

/-! The Voice Allocator. -/

/-- R142: both sides disconnected. -/
def Obligations.DisconnectedSidesGiveEmptyTable : Prop :=
  ∀ (c : Config) (b : Block c),
    (∀ (sd : Side) (v : Channel), (b.valloc (-1) (-1)).entry sd v = none) ∧
    (b.valloc (-1) (-1)).nVoices = 0 ∧ (b.valloc (-1) (-1)).nSimd = 0

/-- R143: exactly one side connected; its voices map sequentially, whichever side it is. -/
def Obligations.SingleSidePacksSequentially : Prop :=
  ∀ (c : Config) (b : Block c) (sd : Side) (p : Nat), p ≤ 16 →
    let b' := b.valloc (if sd = .left then (p : Int) else -1) (if sd = .left then -1 else (p : Int))
    (∀ v : Channel, (b'.entry sd v).map Fin.val = if v.val < p then some v.val else none) ∧
    (∀ (sd' : Side) (v : Channel), sd' ≠ sd → b'.entry sd' v = none) ∧
    b'.nVoices = p ∧ b'.nSimd = (p + 3) / 4

/-- R144: both sides connected; left voice `p` on slot `2p`, right voice `p` on slot `2p + 1`. -/
def Obligations.ConnectedSidesStack : Prop :=
  ∀ (c : Config) (b : Block c) (pl pr : Nat), pl ≤ 16 → pr ≤ 16 →
    let b' := b.valloc pl pr
    (∀ v : Channel, (b'.entry .left v).map Fin.val = if v.val < max pl pr then some (2 * v.val) else none) ∧
    (∀ v : Channel, (b'.entry .right v).map Fin.val = if v.val < max pl pr then some (2 * v.val + 1) else none) ∧
    b'.nVoices = 2 * max pl pr ∧ b'.nSimd = (2 * max pl pr + 3) / 4

/-- R148 for all legal polyphony pairs: (a) and (d) no slot is held twice, within a side or across sides; (b) the group
count; (c) idempotence, table and store; (e) every slot below `N_VOICES`; (f) at most 16 voices per side. -/
def Obligations.AllocationIsSoundForAllPairs : Prop :=
  ∀ (c : Config) (b : Block c) (pl pr : Int), PolyLegal pl → PolyLegal pr →
    let b' := b.valloc pl pr
    (∀ (sd sd' : Side) (v v' : Channel) (q : Slot), b'.entry sd v = some q → b'.entry sd' v' = some q →
      sd = sd' ∧ v = v') ∧
    b'.nSimd = (b'.nVoices + 3) / 4 ∧
    b'.valloc pl pr = b' ∧
    (∀ (sd : Side) (v : Channel) (q : Slot), b'.entry sd v = some q → q.val < b'.nVoices) ∧
    (∀ sd : Side, ((b'.alloc.get sd).toList.filter Option.isSome).length ≤ 16)

/-- `VALLOC` always zeroes the store, whatever table it makes (R146), and leaves everything outside the table and what the
full reset writes (R163). -/
def Obligations.AllocatorAlwaysResetsTheStore : Prop :=
  ∀ (c : Config) (b : Block c) (pl pr : Int),
    (∀ g : GroupIx,
      (∀ r : Fin c.nReg, (b.valloc pl pr).groups[g].reg[r] = zero4 ∧ (b.valloc pl pr).snap[g][r] = zero4) ∧
      (∀ i : Fin c.nCoef, (b.valloc pl pr).groups[g].coef[i] = zero4 ∧ (b.valloc pl pr).groups[g].ramp[i] = zero4) ∧
      (∀ l : LaneIx, (b.valloc pl pr).groups[g].wp[l].val = 0) ∧
      (b.valloc pl pr).groups[g].active = 0 ∧
      (b.valloc pl pr).groups[g].db = b.groups[g].db) ∧
    b.valloc pl pr = { b.freset with
      alloc := (b.valloc pl pr).alloc
      nVoices := (b.valloc pl pr).nVoices
      nSimd := (b.valloc pl pr).nSimd }

/-! The Coefficient Scheduler. -/

/-- R187: state transparency. After `CSCHED` the recursive state of every group is bit-identical, the snapshot holds the
register file, and nothing outside the filter units and the snapshots has changed. -/
def Obligations.SchedulerIsStateTransparent : Prop :=
  ∀ (c : Config) (b : Block c),
    (∀ g : GroupIx, b.csched.groups[g].reg = b.groups[g].reg ∧ b.csched.groups[g].wp = b.groups[g].wp ∧
      b.csched.groups[g].active = b.groups[g].active ∧ b.csched.groups[g].db = b.groups[g].db ∧
      b.csched.snap[g] = b.groups[g].reg) ∧
    b.csched = { b with groups := b.csched.groups, snap := b.csched.snap }

/-- The coefficients and ramps of every group after `CSCHED`: the four lane updates, in order, under the context computed
from lane 0 of the group's own coefficients and the registers as they stand (R181, R183, R184, R185). All four lanes then
hold the context's own values, whatever they held before (R183, R194 (b); log 21). -/
def Obligations.SchedulerUpdatesEveryGroup : Prop :=
  ∀ (c : Config) (b : Block c) (g : GroupIx),
    let ctx := c.coefTarget
      { sharedCfg := c.choices.sharedCfg, type := b.curType, subtype := b.curSub, param := b.param, mods := b.mods,
        group := g, sampleRate := b.fs[g], blockSize := c.blockSize,
        start := Vector.ofFn fun i => b.groups[g].coef[i][0] }
    let after := [0, 1, 2, 3].foldl (fun gs l => Config.laneUpdate ctx gs l) b.groups[g]
    b.csched.groups[g].coef = after.coef ∧ b.csched.groups[g].ramp = after.ramp ∧
    ∀ (i : Fin c.nCoef) (l : LaneIx),
      b.csched.groups[g].coef[i][l] = c.choices.laneCoef ctx i ∧ b.csched.groups[g].ramp[i][l] = c.choices.laneRamp ctx i

/-- The frame condition of R185: a lane update changes only its own lane of `COEF` and `RAMP`, and registers; what it leaves
in its lane is the same for every group state and every lane with that context (R183; log 21). It reads no write pointer,
no mask and no delay buffer (R70, R72): from a state that differs in those alone, it leaves a state that differs in those alone. -/
def Obligations.LaneUpdateWritesItsLaneOnly : Prop :=
  ∀ (c : Config) (ctx : Ctx c.nCoef) (gs gs' : c.GS) (l : LaneIx) (i : Fin c.nCoef),
    (∀ l' : LaneIx, l' ≠ l → (Config.laneUpdate ctx gs l).coef[i][l'] = gs.coef[i][l'] ∧
      (Config.laneUpdate ctx gs l).ramp[i][l'] = gs.ramp[i][l']) ∧
    (∀ l' : LaneIx, (Config.laneUpdate ctx gs l).coef[i][l] = (Config.laneUpdate ctx gs' l').coef[i][l'] ∧
      (Config.laneUpdate ctx gs l).ramp[i][l] = (Config.laneUpdate ctx gs' l').ramp[i][l']) ∧
    (Config.laneUpdate ctx gs l).wp = gs.wp ∧ (Config.laneUpdate ctx gs l).active = gs.active ∧
    (Config.laneUpdate ctx gs l).db = gs.db ∧
    Config.laneUpdate ctx { gs with wp := gs'.wp, active := gs'.active, db := gs'.db } l =
      { Config.laneUpdate ctx gs l with wp := gs'.wp, active := gs'.active, db := gs'.db }

/-- The frame condition of R189 on `CINTERP(g)`: only `COEF` of that group changes, each element from itself and its own
ramp alone, in every lane alike (R183; log 21), and an element whose ramp is `ZERO` keeps its bit pattern. -/
def Obligations.InterpolationMovesCoefficientsOnly : Prop :=
  ∀ (c : Config) (b b' : Block c) (g : GroupIx),
    (b.cinterp g).groups[g] = { b.groups[g] with coef := (b.cinterp g).groups[g].coef } ∧
    (∀ g' : GroupIx, g' ≠ g → (b.cinterp g).groups[g'] = b.groups[g']) ∧
    b.cinterp g = { b with groups := (b.cinterp g).groups } ∧
    (∀ (i : Fin c.nCoef) (l l' : LaneIx),
      (b.groups[g].ramp[i][l] = zeroF → (b.cinterp g).groups[g].coef[i][l] = b.groups[g].coef[i][l]) ∧
      (b.groups[g].coef[i][l] = b'.groups[g].coef[i][l'] → b.groups[g].ramp[i][l] = b'.groups[g].ramp[i][l'] →
        (b.cinterp g).groups[g].coef[i][l] = (b'.cinterp g).groups[g].coef[i][l']))

/-! The Filter Dispatcher. -/

/-- Reading and clamping the selectors (R201), remembering the pair and its subtype (R202), resolving the function (R203):
what `SELCHK` leaves in the selector state, and that the slots keep their values. A resolved function does not reach `RAMP`
(R70, R206 (c); that it does not read it is DEDUCED, log 22): from a state with another ramp it leaves that ramp, and the
rest and the output are the same. -/
def Obligations.SelectorLatchesClampedPair : Prop :=
  ∀ (c : Config) (b : Block c),
    let t : Int := max 0 (min b.param.type (c.nTypes - 1))
    let u : Int := max 0 (min b.param.subtype (max (c.choices.nSub t.toNat) 1 - 1))
    b.selchk.curType = t ∧ b.selchk.curSub = u ∧
    (∀ k : Fin c.nTypes, (b.selchk.defsub[k] : Int) = if (k.val : Int) = t then u else b.defsub[k]) ∧
    b.selchk.resolved = c.filterFn t.toNat u.toNat ∧
    b.selchk.param = b.param ∧
    ∀ f, b.selchk.resolved = some f → ∀ (gs : c.GS) (x : Vec4) (ramp : Vector Vec4 c.nCoef),
      f { gs with ramp := ramp } x = ({ (f gs x).1 with ramp := ramp }, (f gs x).2)

/-- A boundary that finds another type, another subtype or another polyphony of either side than the latched ones zeroes
the register file, the write pointers and the masks of every group, and leaves the delay buffers (R162, R163, R169, R202,
R224). The coefficients start again from zero: what the scheduler then writes is what the context gives for a start of
`ZERO` in every coefficient (R193; log 21). The type and subtype are those that `SELCHK` latches, the statement
`SelectorLatchesClampedPair`. -/
def Obligations.ChangeAtBoundaryClearsTheStore : Prop :=
  ∀ (c : Config) (b : Block c),
    b.selchk.curType ≠ b.curType ∨ b.selchk.curSub ≠ b.curSub ∨ (∃ sd, b.poly.get sd ≠ b.lastPoly.get sd) →
    ∀ g : GroupIx,
      (∀ r : Fin c.nReg, b.boundary.groups[g].reg[r] = zero4) ∧ (∀ l : LaneIx, b.boundary.groups[g].wp[l].val = 0) ∧
      b.boundary.groups[g].active = 0 ∧ b.boundary.groups[g].db = b.groups[g].db ∧
      let ctx := c.coefTarget
        { sharedCfg := c.choices.sharedCfg, type := b.selchk.curType, subtype := b.selchk.curSub, param := b.param,
          mods := b.mods, group := g, sampleRate := b.fs[g], blockSize := c.blockSize,
          start := Vector.replicate c.nCoef zeroF }
      ∀ (i : Fin c.nCoef) (l : LaneIx), b.boundary.groups[g].coef[i][l] = c.choices.laneCoef ctx i ∧
        b.boundary.groups[g].ramp[i][l] = c.choices.laneRamp ctx i

/-- A boundary that finds the latched type and subtype and the latched polyphony of both sides again keeps every group's
recursive state and the Allocation Table (R162, R187, R224). -/
def Obligations.UnchangedBoundaryKeepsRecursiveState : Prop :=
  ∀ (c : Config) (b : Block c), b.selchk.curType = b.curType → b.selchk.curSub = b.curSub →
    (∀ sd, b.poly.get sd = b.lastPoly.get sd) →
    b.boundary.alloc = b.alloc ∧ b.boundary.nVoices = b.nVoices ∧ b.boundary.nSimd = b.nSimd ∧
    ∀ g : GroupIx, b.boundary.groups[g].reg = b.groups[g].reg ∧ b.boundary.groups[g].wp = b.groups[g].wp ∧
      b.boundary.groups[g].active = b.groups[g].active ∧ b.boundary.groups[g].db = b.groups[g].db

/-- R205: without a resolved function the input vector is copied and no state changes; with one, its group's state and
output are the function's, and no other group's. -/
def Obligations.DispatchCopiesOrApplies : Prop :=
  ∀ (c : Config) (b : Block c) (inp out : Vector Vec4 8) (g g' : GroupIx),
    (b.resolved = none → (b.dispatch inp out g).1 = b ∧
      (b.dispatch inp out g).2[g'] = if g' = g then inp[g] else out[g']) ∧
    (∀ f, b.resolved = some f →
      (b.dispatch inp out g).1.groups[g'] = (if g' = g then (f b.groups[g] inp[g]).1 else b.groups[g']) ∧
      (b.dispatch inp out g).2[g'] = (if g' = g then (f b.groups[g] inp[g]).2 else out[g']) ∧
      (b.dispatch inp out g).1 = { b with groups := (b.dispatch inp out g).1.groups })

/-- The Default Subtype Memory is write-only within the core (R208): a tick from two states that differ only in it gives
states that differ only in it. -/
def Obligations.TickDoesNotReadDefaultSubtypes : Prop :=
  ∀ (c : Config) (b : Block c) (d : Vector Nat c.nTypes),
    ({ b with defsub := d } : Block c).tick = { b.tick with defsub := ({ b with defsub := d } : Block c).tick.defsub }

/-- The snapshot cache is hidden state (R29): a tick from two states that differ only in it gives states that differ only
in it. -/
def Obligations.TickDoesNotReadSnapshots : Prop :=
  ∀ (c : Config) (b : Block c) (sn : Vector (Vector Vec4 c.nReg) 8),
    ({ b with snap := sn } : Block c).tick = { b.tick with snap := ({ b with snap := sn } : Block c).tick.snap }

/-! The Block Processor. -/

/-- The boundary ticks after a state at a boundary are every `BLOCK_SIZE`-th tick, the first among them (R222): the position
after the tick numbered `k + 1`. -/
def Obligations.BoundaryCadence : Prop :=
  ∀ (c : Config) (b : Block c) (k : Nat), b.pos = c.blockSize →
    (Block.tick^[k + 1] b).pos = k % c.blockSize + 1

/-- A tick writes no port register, no parameter slot and no sample rate (R37, R42 to R45). -/
def Obligations.TickKeepsPortRegisters : Prop :=
  ∀ (c : Config) (b : Block c), b.tick.poly = b.poly ∧ b.tick.vin = b.vin ∧ b.tick.param = b.param ∧
    b.tick.mods = b.mods ∧ b.tick.fs = b.fs

/-- Within a block nothing that steers the datapath changes (R86): a tick that is no boundary tick keeps the selection, the
table, the latched polyphony, the memories of the other units and every ramp. -/
def Obligations.MidBlockTickKeepsSteeringState : Prop :=
  ∀ (c : Config) (b : Block c), b.pos < c.blockSize →
    b.tick = { b with groups := b.tick.groups, vout := b.tick.vout, outch := b.tick.outch, pos := b.pos + 1 } ∧
    ∀ g : GroupIx, b.tick.groups[g].ramp = b.groups[g].ramp

/-- Writes to the polyphony, parameter, modulation and sample-rate registers reach the datapath at a boundary only (R84,
R85): a tick that is no boundary tick does nothing different for them. -/
def Obligations.MidBlockTickIgnoresPortWrites : Prop :=
  ∀ (c : Config) (b : Block c) (p : PerSide Int) (q : ParamSlots) (m : ModTable) (r : Vector F 8),
    b.pos < c.blockSize →
    ({ b with poly := p, param := q, mods := m, fs := r } : Block c).tick =
      { b.tick with poly := p, param := q, mods := m, fs := r }

/-- `GATHER` of a tick, on the state that the tick's boundary work has left, puts the converted input of every carried voice
in its lane (R227, R228); a lane that no carried voice maps to holds `ZERO` (R229). -/
def Obligations.GatherFillsEveryLane : Prop :=
  ∀ (c : Config) (b : Block c), b.Inv → ∀ q : Slot,
    (∀ (sd : Side) (v : Channel), b.atBlockStart.Carried sd v → b.atBlockStart.entry sd v = some q →
      laneGet b.atBlockStart.gather q = c.fmul (b.vin.get sd)[v] c.inScale) ∧
    ((∀ (sd : Side) (v : Channel), b.atBlockStart.Carried sd v → b.atBlockStart.entry sd v ≠ some q) →
      laneGet b.atBlockStart.gather q = zeroF)

/-- The group loop (R221, R230): a group in use is interpolated and dispatched on its gathered input, a group not in use is
left. -/
def Obligations.SampleRunsGroupsInUse : Prop :=
  ∀ (c : Config) (b : Block c) (g : GroupIx),
    b.sample.groups[g] =
      if g.val < b.nSimd then
        match b.resolved with
        | none => Config.interp b.groups[g]
        | some f => (f (Config.interp b.groups[g]) b.gather[g]).1
      else b.groups[g]

/-- R232: `SCATTER` writes all 32 output voltages and both channel counts, and nothing else. -/
def Obligations.ScatterWritesEveryOutput : Prop :=
  ∀ (c : Config) (b : Block c) (out : Vector Vec4 8),
    (∀ (sd : Side) (v : Channel),
      (∀ q, b.Carried sd v → b.entry sd v = some q →
        ((b.scatter out).vout.get sd)[v] = c.fmul (laneGet out q) c.outScale) ∧
      (¬ b.Carried sd v ∨ b.entry sd v = none → ((b.scatter out).vout.get sd)[v] = zeroF)) ∧
    (∀ sd : Side, ((b.scatter out).outch.get sd : Int) = max (b.lastPoly.get sd) 1) ∧
    b.scatter out = { b with vout := (b.scatter out).vout, outch := (b.scatter out).outch }

/-- The outputs follow the latched polyphony, which a boundary tick takes from the ports and no other tick changes (R224,
R232, R233): the channel counts, and `ZERO` on every channel past the count. -/
def Obligations.OutputsFollowLatchedPolyphony : Prop :=
  ∀ (c : Config) (b : Block c) (sd : Side),
    b.tick.lastPoly.get sd = (if c.blockSize ≤ b.pos then b.poly.get sd else b.lastPoly.get sd) ∧
    (b.tick.outch.get sd : Int) = max (b.tick.lastPoly.get sd) 1 ∧
    ∀ v : Channel, b.tick.lastPoly.get sd ≤ v.val → (b.tick.vout.get sd)[v] = zeroF

/-- The output voltage that a tick gives a carried voice: its lane of what the resolved function makes of the gathered input
of the voice's group, after that group's interpolation, in the host's units (R189, R205, R221, R230, R232). All of it on
the state `m` that the tick's boundary work has left. -/
def Obligations.VoiceOutputIsItsLanesFilterOutput : Prop :=
  ∀ (c : Config) (b : Block c), b.Inv → ∀ m : Block c, m = (if c.blockSize ≤ b.pos then b.boundary else b) →
    ∀ (sd : Side) (v : Channel) (q : Slot), m.Carried sd v → m.entry sd v = some q →
      (b.tick.vout.get sd)[v] = c.fmul
        (match m.resolved with
          | none => m.gather[slotGroup q]
          | some f => (f (Config.interp m.groups[slotGroup q]) m.gather[slotGroup q]).2)[slotLane q] c.outScale

/-- Bypass correctness (R207): when the tick's function is `none`, every carried voice's output is its input after the unit
conversion round trip. -/
def Obligations.BypassPassesInputsThrough : Prop :=
  ∀ (c : Config) (b : Block c), b.Inv → b.tick.resolved = none →
    ∀ (sd : Side) (v : Channel), (v.val : Int) < b.tick.lastPoly.get sd →
      (b.tick.vout.get sd)[v] = c.fmul (c.fmul (b.vin.get sd)[v] c.inScale) c.outScale

/-! Arithmetic. -/

/-- The product of a normal value and a power of two is exact where its exponent stays normal: the sign is the product of
the signs, the fraction is kept and the exponents add (R16, R237). -/
def Obligations.MultiplyByPowerOfTwoIsExact : Prop :=
  ∀ nan x p : F, Sys2Proof.Float32.fracField p = 0 → 1 ≤ Sys2Proof.Float32.expField p → Sys2Proof.Float32.expField p ≤ 254 →
    1 ≤ Sys2Proof.Float32.expField x → Sys2Proof.Float32.expField x ≤ 254 →
    128 ≤ Sys2Proof.Float32.expField x + Sys2Proof.Float32.expField p → Sys2Proof.Float32.expField x + Sys2Proof.Float32.expField p ≤ 381 →
    Sys2Proof.Float32.mul nan x p = Sys2Proof.Float32.withSign (Sys2Proof.Float32.sign x != Sys2Proof.Float32.sign p)
      ((Sys2Proof.Float32.expField x + Sys2Proof.Float32.expField p - 127) * 2 ^ 23 + Sys2Proof.Float32.fracField x)

/-- `OUT_SCALE = 1 / IN_SCALE` within the tolerance (R10), and the conversion round trip that this is for (R237), in every
configuration. `units` counts the smallest magnitude, `2 ^ (-149)`. First, both constants are finite and nonzero, of one
sign, and `OUT_SCALE` is at most `t` units in the last place away from the finite value nearest to `1 / IN_SCALE`, `t` being
the configuration's open tolerance. That value is the rounded reciprocal, or the greatest finite magnitude where the
reciprocal overflows. Then, where the reciprocal and both products are normal numbers (no overflow or
underflow), or the voltage is a zero, the round trip returns the voltage within `(t + 1) / 2 ^ 22` of its magnitude. That
the tolerance is counted in units in the last place is THE MODEL'S CHOICE (log 5). -/
def Obligations.ConversionRoundTripIsWithinTolerance : Prop :=
  ∀ c : Config,
    let t := c.choices.scaleTolerance
    let r := c.fdiv 0x3F800000 c.inScale
    let near := if Sys2Proof.Float32.isFinite r then r
      else if Sys2Proof.Float32.sign c.inScale then 0xFF7FFFFF else 0x7F7FFFFF
    (Sys2Proof.Float32.isFiniteNonzero c.inScale ∧ Sys2Proof.Float32.isFiniteNonzero c.outScale ∧
      Sys2Proof.Float32.sign c.outScale = Sys2Proof.Float32.sign c.inScale ∧
      (Sys2Proof.Float32.units c.outScale - Sys2Proof.Float32.units near).natAbs ≤ t * Sys2Proof.Float32.ulp near) ∧
    (1 ≤ Sys2Proof.Float32.expField r → Sys2Proof.Float32.expField r ≤ 254 → ∀ x : F, Sys2Proof.Float32.isFinite x →
      let y := c.fmul x c.inScale
      let z := c.fmul y c.outScale
      (Sys2Proof.Float32.isZero x ∨
        ((1 ≤ Sys2Proof.Float32.expField y ∧ Sys2Proof.Float32.expField y ≤ 254) ∧
          (1 ≤ Sys2Proof.Float32.expField z ∧ Sys2Proof.Float32.expField z ≤ 254))) →
      (Sys2Proof.Float32.units z - Sys2Proof.Float32.units x).natAbs * 2 ^ 22 ≤
        (t + 1) * (Sys2Proof.Float32.units x).natAbs)

/-- The conversion round trip is exact when both scale constants are powers of two and no overflow or underflow occurs
(R237). `units` counts the smallest magnitude, `2 ^ (-149)`: the constants are `2 ^ (m - 149)` and `2 ^ (n - 149)`, and their
product is then 1, whatever the tolerance. An infinity comes back as it is (vector V-BP6); a finite voltage, a zero or subnormal one
among them, comes back where its product with `IN_SCALE` is a whole number of those units (nothing lost below) and less
than `2 ^ 128` (no overflow). -/
def Obligations.ConversionRoundTripIsExact : Prop :=
  ∀ (c : Config) (m n : Nat), (Sys2Proof.Float32.units c.inScale).natAbs = 2 ^ m →
    (Sys2Proof.Float32.units c.outScale).natAbs = 2 ^ n →
    m + n = 149 + 149 ∧ ∀ x : F,
      (Sys2Proof.Float32.isInf x → c.fmul (c.fmul x c.inScale) c.outScale = x) ∧
      (Sys2Proof.Float32.isFinite x → 2 ^ 149 ∣ (Sys2Proof.Float32.units x).natAbs * 2 ^ m →
        (Sys2Proof.Float32.units x).natAbs * 2 ^ m / 2 ^ 149 < 2 ^ 149 * 2 ^ 128 →
        c.fmul (c.fmul x c.inScale) c.outScale = x)
end

