-- ==== Sys2Proof/Laws/Allocator.lean ====
section
/-! SUPPORT. The entries of the three packings (R143, R144), one lemma each. -/

namespace Sys2Proof.Machine

@[simp] theorem noVoices_entry (v : Channel) : noVoices[v] = none := by simp [noVoices]

theorem sequential_entry (p : Int) (v : Channel) :
    (sequential p)[v] = if (v.val : Int) < p then some ⟨v.val, by omega⟩ else none := by simp [sequential]

theorem stackedLeft_entry (m : Int) (v : Channel) :
    (stackedLeft m)[v] = if (v.val : Int) < m then some ⟨2 * v.val, by omega⟩ else none := by simp [stackedLeft]

theorem stackedRight_entry (m : Int) (v : Channel) :
    (stackedRight m)[v] = if (v.val : Int) < m then some ⟨2 * v.val + 1, by omega⟩ else none := by
  simp [stackedRight]

/-- The four cases of the policy, in its order (R142 to R144). -/
theorem alloc_cases (pl pr : Int) :
    (pl = -1 ∧ pr = -1 ∧ allocTable pl pr = ⟨noVoices, noVoices⟩ ∧ allocVoices pl pr = 0) ∨
    (pl ≠ -1 ∧ pr = -1 ∧ allocTable pl pr = ⟨sequential pl, noVoices⟩ ∧ allocVoices pl pr = pl.toNat) ∨
    (pl = -1 ∧ pr ≠ -1 ∧ allocTable pl pr = ⟨noVoices, sequential pr⟩ ∧ allocVoices pl pr = pr.toNat) ∨
    (pl ≠ -1 ∧ pr ≠ -1 ∧ allocTable pl pr = ⟨stackedLeft (max pl pr), stackedRight (max pl pr)⟩ ∧
      allocVoices pl pr = 2 * (max pl pr).toNat) := by
  unfold allocTable allocVoices
  by_cases hl : pl = -1 <;> by_cases hr : pr = -1 <;> simp [hl, hr]

/-- What a table entry that holds a slot can be (R142 to R144): a voice of the one connected side, in sequence, or a voice of
two stacked sides. -/
theorem allocTable_some {pl pr : Int} {sd : Side} {v : Channel} {q : Slot}
    (h : ((allocTable pl pr).get sd)[v] = some q) :
    (pl ≠ -1 ∧ pr = -1 ∧ sd = .left ∧ (v.val : Int) < pl ∧ q.val = v.val) ∨
    (pl = -1 ∧ pr ≠ -1 ∧ sd = .right ∧ (v.val : Int) < pr ∧ q.val = v.val) ∨
    (pl ≠ -1 ∧ pr ≠ -1 ∧ (v.val : Int) < max pl pr ∧
      ((sd = .left ∧ q.val = 2 * v.val) ∨ (sd = .right ∧ q.val = 2 * v.val + 1))) := by
  have some_of : ∀ {p : Prop} [Decidable p] {x : Slot}, (if p then some x else none) = some q → p ∧ q = x := by
    intro p _ x hx
    split at hx
    · exact ⟨‹p›, (Option.some.inj hx).symm⟩
    · cases hx
  rcases alloc_cases pl pr with ⟨hl, hr, ht, -⟩ | ⟨hl, hr, ht, -⟩ | ⟨hl, hr, ht, -⟩ | ⟨hl, hr, ht, -⟩ <;>
    rw [ht] at h <;> cases sd <;>
    simp only [PerSide.get, noVoices_entry, sequential_entry, stackedLeft_entry, stackedRight_entry, reduceCtorEq] at h <;>
    obtain ⟨hv, rfl⟩ := some_of h <;> simp_all

/-- The voice count of two legal polyphony counts is at most the number of slots (R33). -/
theorem allocVoices_le {pl pr : Int} (hl : pl ≤ 16) (hr : pr ≤ 16) : allocVoices pl pr ≤ 32 := by
  rcases alloc_cases pl pr with ⟨-, -, -, h⟩ | ⟨-, -, -, h⟩ | ⟨-, -, -, h⟩ | ⟨-, -, -, h⟩ <;> omega

end Sys2Proof.Machine
end

