-- ==== Sys2Proof/Laws/Decode.lean ====
section
/-! SUPPORT. The pieces of the command word: fields out of a word and into one (R111), the numbers of sides, slots and
opcodes (R108, R109, R114), and what the decoder accepts. -/

namespace Sys2Proof

theorem fieldsOf_word (f : Fields) : fieldsOf f.word = f := by
  obtain ⟨op, a, b, z, data⟩ := f
  simp only [fieldsOf, Fields.word, Fields.mk.injEq]
  refine ⟨?_, ?_, ?_, ?_, ?_⟩ <;>
  · apply BitVec.eq_of_getLsbD_eq
    intro i hi
    simp only [BitVec.getLsbD_extractLsb', BitVec.getLsbD_append]
    grind

theorem word_fieldsOf (w : Word) : (fieldsOf w).word = w := by
  simp only [fieldsOf, Fields.word]
  apply BitVec.eq_of_getLsbD_eq
  intro i hi
  simp only [BitVec.getLsbD_extractLsb', BitVec.getLsbD_append]
  grind

@[simp] theorem Opcode.ofByte?_byte (o : Opcode) : Opcode.ofByte? o.byte = some o := by cases o <;> rfl

@[simp] theorem Side.ofByte?_byte (sd : Side) : Side.ofByte? sd.byte = .ok sd := by cases sd <;> rfl

@[simp] theorem ParamSlot.ofByte?_byte (p : ParamSlot) : ParamSlot.ofByte? p.byte = .ok p := by cases p <;> rfl

theorem Opcode.byte_of_ofByte? {op : BitVec 8} {o : Opcode} (h : Opcode.ofByte? op = some o) : o.byte = op := by
  revert o
  revert op
  decide

theorem Side.byte_of_ofByte? {a : BitVec 8} {sd : Side} (h : Side.ofByte? a = .ok sd) : sd.byte = a := by
  unfold Side.ofByte? at h
  split at h <;> cases h <;> exact BitVec.eq_of_toNat_eq (by simp [Side.byte, *])

theorem ParamSlot.byte_of_ofByte? {a : BitVec 8} {p : ParamSlot} (h : ParamSlot.ofByte? a = .ok p) : p.byte = a := by
  unfold ParamSlot.ofByte? at h
  split at h <;> cases h <;> exact BitVec.eq_of_toNat_eq (by simp [ParamSlot.byte, *])

/-- What the decoder accepts (R114, R128): an assigned opcode, zeros where the format carries nothing, operands that
assemble and are legal. -/
theorem decodeFor_ok {n : Nat} {w : Word} {i : Instr} :
    decodeFor n w = .ok i ↔
      ∃ o, Opcode.ofByte? (fieldsOf w).op = some o ∧ checkZeros o.format (fieldsOf w) = none ∧
        assemble o (fieldsOf w) = .ok i ∧ i.WellFormedFor n := by
  unfold decodeFor checked Instr.WellFormedFor
  cases ho : Opcode.ofByte? (fieldsOf w).op with
  | none => simp
  | some o =>
    cases hz : checkZeros o.format (fieldsOf w) with
    | some r => simp [hz]
    | none =>
      cases ha : assemble o (fieldsOf w) with
      | error r => simp [hz, ha]
      | ok j =>
        simp only [Option.some.injEq, exists_eq_left', hz, ha, Except.ok.injEq, true_and]
        cases hc : j.checkFor n with
        | none => simp only [Except.ok.injEq]; exact ⟨fun h => ⟨h, h ▸ hc⟩, fun h => h.1⟩
        | some r => simp only [reduceCtorEq, false_iff]; rintro ⟨rfl, h⟩; simp [hc] at h

end Sys2Proof
end

