-- ==== Sys2Proof/Laws/State.lean ====
section
/-! SUPPORT. One lemma for each field and each update of the state, so that no proof unfolds a record update. -/

namespace Sys2Proof.Machine

namespace State

variable (s : State)

@[simp] theorem wrote_block (b : Block Config.device) : (s.wrote b).block = b := rfl
@[simp] theorem wrote_cmds (b : Block Config.device) : (s.wrote b).cmds = s.cmds := rfl
@[simp] theorem wrote_resp (b : Block Config.device) : (s.wrote b).resp = none := rfl
@[simp] theorem answered_block (v : Resp) : (s.answered v).block = s.block := rfl
@[simp] theorem answered_cmds (v : Resp) : (s.answered v).cmds = s.cmds := rfl
@[simp] theorem answered_resp (v : Resp) : (s.answered v).resp = some v := rfl

end State

namespace Block

variable {c : Config} (b : Block c)

/-! `setGroup` -/

@[simp] theorem setGroup_groups (g : GroupIx) (gs : c.GS) : (b.setGroup g gs).groups = b.groups.set g gs := rfl
@[simp] theorem setGroup_snap (g : GroupIx) (gs : c.GS) : (b.setGroup g gs).snap = b.snap := rfl
@[simp] theorem setGroup_alloc (g : GroupIx) (gs : c.GS) : (b.setGroup g gs).alloc = b.alloc := rfl
@[simp] theorem setGroup_nVoices (g : GroupIx) (gs : c.GS) : (b.setGroup g gs).nVoices = b.nVoices := rfl
@[simp] theorem setGroup_nSimd (g : GroupIx) (gs : c.GS) : (b.setGroup g gs).nSimd = b.nSimd := rfl
@[simp] theorem setGroup_lastPoly (g : GroupIx) (gs : c.GS) : (b.setGroup g gs).lastPoly = b.lastPoly := rfl
@[simp] theorem setGroup_curType (g : GroupIx) (gs : c.GS) : (b.setGroup g gs).curType = b.curType := rfl
@[simp] theorem setGroup_curSub (g : GroupIx) (gs : c.GS) : (b.setGroup g gs).curSub = b.curSub := rfl
@[simp] theorem setGroup_fn (g : GroupIx) (gs : c.GS) : (b.setGroup g gs).fn = b.fn := rfl
@[simp] theorem setGroup_defsub (g : GroupIx) (gs : c.GS) : (b.setGroup g gs).defsub = b.defsub := rfl
@[simp] theorem setGroup_fs (g : GroupIx) (gs : c.GS) : (b.setGroup g gs).fs = b.fs := rfl
@[simp] theorem setGroup_pos (g : GroupIx) (gs : c.GS) : (b.setGroup g gs).pos = b.pos := rfl
@[simp] theorem setGroup_poly (g : GroupIx) (gs : c.GS) : (b.setGroup g gs).poly = b.poly := rfl
@[simp] theorem setGroup_vin (g : GroupIx) (gs : c.GS) : (b.setGroup g gs).vin = b.vin := rfl
@[simp] theorem setGroup_param (g : GroupIx) (gs : c.GS) : (b.setGroup g gs).param = b.param := rfl
@[simp] theorem setGroup_mods (g : GroupIx) (gs : c.GS) : (b.setGroup g gs).mods = b.mods := rfl
@[simp] theorem setGroup_vout (g : GroupIx) (gs : c.GS) : (b.setGroup g gs).vout = b.vout := rfl
@[simp] theorem setGroup_outch (g : GroupIx) (gs : c.GS) : (b.setGroup g gs).outch = b.outch := rfl

/-! `freset` -/

@[simp] theorem freset_groups : b.freset.groups = b.groups.map clearGroup := rfl
@[simp] theorem freset_snap : b.freset.snap = Vector.replicate 8 (Vector.replicate _ zero4) := rfl
@[simp] theorem freset_alloc : b.freset.alloc = b.alloc := rfl
@[simp] theorem freset_nVoices : b.freset.nVoices = b.nVoices := rfl
@[simp] theorem freset_nSimd : b.freset.nSimd = b.nSimd := rfl
@[simp] theorem freset_lastPoly : b.freset.lastPoly = b.lastPoly := rfl
@[simp] theorem freset_curType : b.freset.curType = b.curType := rfl
@[simp] theorem freset_curSub : b.freset.curSub = b.curSub := rfl
@[simp] theorem freset_fn : b.freset.fn = b.fn := rfl
@[simp] theorem freset_defsub : b.freset.defsub = b.defsub := rfl
@[simp] theorem freset_fs : b.freset.fs = b.fs := rfl
@[simp] theorem freset_pos : b.freset.pos = b.pos := rfl
@[simp] theorem freset_poly : b.freset.poly = b.poly := rfl
@[simp] theorem freset_vin : b.freset.vin = b.vin := rfl
@[simp] theorem freset_param : b.freset.param = b.param := rfl
@[simp] theorem freset_mods : b.freset.mods = b.mods := rfl
@[simp] theorem freset_vout : b.freset.vout = b.vout := rfl
@[simp] theorem freset_outch : b.freset.outch = b.outch := rfl

/-! `snapshot` -/

@[simp] theorem snapshot_groups (g : GroupIx) : (b.snapshot g).groups = b.groups := rfl
@[simp] theorem snapshot_snap (g : GroupIx) : (b.snapshot g).snap = b.snap.set g b.groups[g].reg := rfl
@[simp] theorem snapshot_alloc (g : GroupIx) : (b.snapshot g).alloc = b.alloc := rfl
@[simp] theorem snapshot_nVoices (g : GroupIx) : (b.snapshot g).nVoices = b.nVoices := rfl
@[simp] theorem snapshot_nSimd (g : GroupIx) : (b.snapshot g).nSimd = b.nSimd := rfl
@[simp] theorem snapshot_lastPoly (g : GroupIx) : (b.snapshot g).lastPoly = b.lastPoly := rfl
@[simp] theorem snapshot_curType (g : GroupIx) : (b.snapshot g).curType = b.curType := rfl
@[simp] theorem snapshot_curSub (g : GroupIx) : (b.snapshot g).curSub = b.curSub := rfl
@[simp] theorem snapshot_fn (g : GroupIx) : (b.snapshot g).fn = b.fn := rfl
@[simp] theorem snapshot_defsub (g : GroupIx) : (b.snapshot g).defsub = b.defsub := rfl
@[simp] theorem snapshot_fs (g : GroupIx) : (b.snapshot g).fs = b.fs := rfl
@[simp] theorem snapshot_pos (g : GroupIx) : (b.snapshot g).pos = b.pos := rfl
@[simp] theorem snapshot_poly (g : GroupIx) : (b.snapshot g).poly = b.poly := rfl
@[simp] theorem snapshot_vin (g : GroupIx) : (b.snapshot g).vin = b.vin := rfl
@[simp] theorem snapshot_param (g : GroupIx) : (b.snapshot g).param = b.param := rfl
@[simp] theorem snapshot_mods (g : GroupIx) : (b.snapshot g).mods = b.mods := rfl
@[simp] theorem snapshot_vout (g : GroupIx) : (b.snapshot g).vout = b.vout := rfl
@[simp] theorem snapshot_outch (g : GroupIx) : (b.snapshot g).outch = b.outch := rfl

/-! `restore` -/

@[simp] theorem restore_groups (g : GroupIx) :
    (b.restore g).groups = b.groups.set g { b.groups[g] with reg := b.snap[g] } :=
  rfl
@[simp] theorem restore_snap (g : GroupIx) : (b.restore g).snap = b.snap := rfl
@[simp] theorem restore_alloc (g : GroupIx) : (b.restore g).alloc = b.alloc := rfl
@[simp] theorem restore_nVoices (g : GroupIx) : (b.restore g).nVoices = b.nVoices := rfl
@[simp] theorem restore_nSimd (g : GroupIx) : (b.restore g).nSimd = b.nSimd := rfl
@[simp] theorem restore_lastPoly (g : GroupIx) : (b.restore g).lastPoly = b.lastPoly := rfl
@[simp] theorem restore_curType (g : GroupIx) : (b.restore g).curType = b.curType := rfl
@[simp] theorem restore_curSub (g : GroupIx) : (b.restore g).curSub = b.curSub := rfl
@[simp] theorem restore_fn (g : GroupIx) : (b.restore g).fn = b.fn := rfl
@[simp] theorem restore_defsub (g : GroupIx) : (b.restore g).defsub = b.defsub := rfl
@[simp] theorem restore_fs (g : GroupIx) : (b.restore g).fs = b.fs := rfl
@[simp] theorem restore_pos (g : GroupIx) : (b.restore g).pos = b.pos := rfl
@[simp] theorem restore_poly (g : GroupIx) : (b.restore g).poly = b.poly := rfl
@[simp] theorem restore_vin (g : GroupIx) : (b.restore g).vin = b.vin := rfl
@[simp] theorem restore_param (g : GroupIx) : (b.restore g).param = b.param := rfl
@[simp] theorem restore_mods (g : GroupIx) : (b.restore g).mods = b.mods := rfl
@[simp] theorem restore_vout (g : GroupIx) : (b.restore g).vout = b.vout := rfl
@[simp] theorem restore_outch (g : GroupIx) : (b.restore g).outch = b.outch := rfl

/-! `valloc` -/

@[simp] theorem valloc_groups (pl pr : Int) : (b.valloc pl pr).groups = b.groups.map clearGroup := rfl
@[simp] theorem valloc_snap (pl pr : Int) :
    (b.valloc pl pr).snap = Vector.replicate 8 (Vector.replicate _ zero4) :=
  rfl
@[simp] theorem valloc_alloc (pl pr : Int) : (b.valloc pl pr).alloc = allocTable pl pr :=
    by simp only [valloc, freset_alloc]
@[simp] theorem valloc_nVoices (pl pr : Int) : (b.valloc pl pr).nVoices = allocVoices pl pr :=
    by simp only [valloc, freset_nVoices]
@[simp] theorem valloc_nSimd (pl pr : Int) : (b.valloc pl pr).nSimd = ceilDiv (allocVoices pl pr) 4 :=
    by simp only [valloc, freset_nSimd]
@[simp] theorem valloc_lastPoly (pl pr : Int) : (b.valloc pl pr).lastPoly = b.lastPoly :=
    by simp only [valloc, freset_lastPoly]
@[simp] theorem valloc_curType (pl pr : Int) : (b.valloc pl pr).curType = b.curType :=
    by simp only [valloc, freset_curType]
@[simp] theorem valloc_curSub (pl pr : Int) : (b.valloc pl pr).curSub = b.curSub :=
    by simp only [valloc, freset_curSub]
@[simp] theorem valloc_fn (pl pr : Int) : (b.valloc pl pr).fn = b.fn :=
    by simp only [valloc, freset_fn]
@[simp] theorem valloc_defsub (pl pr : Int) : (b.valloc pl pr).defsub = b.defsub :=
    by simp only [valloc, freset_defsub]
@[simp] theorem valloc_fs (pl pr : Int) : (b.valloc pl pr).fs = b.fs :=
    by simp only [valloc, freset_fs]
@[simp] theorem valloc_pos (pl pr : Int) : (b.valloc pl pr).pos = b.pos :=
    by simp only [valloc, freset_pos]
@[simp] theorem valloc_poly (pl pr : Int) : (b.valloc pl pr).poly = b.poly :=
    by simp only [valloc, freset_poly]
@[simp] theorem valloc_vin (pl pr : Int) : (b.valloc pl pr).vin = b.vin :=
    by simp only [valloc, freset_vin]
@[simp] theorem valloc_param (pl pr : Int) : (b.valloc pl pr).param = b.param :=
    by simp only [valloc, freset_param]
@[simp] theorem valloc_mods (pl pr : Int) : (b.valloc pl pr).mods = b.mods :=
    by simp only [valloc, freset_mods]
@[simp] theorem valloc_vout (pl pr : Int) : (b.valloc pl pr).vout = b.vout :=
    by simp only [valloc, freset_vout]
@[simp] theorem valloc_outch (pl pr : Int) : (b.valloc pl pr).outch = b.outch :=
    by simp only [valloc, freset_outch]

/-! `laneUpdates` -/

@[simp] theorem laneUpdates_groups (ctx : Ctx c.nCoef) (g : GroupIx) :
    (b.laneUpdates ctx g).groups = b.groups.set g (forLanes b.groups[g] fun gs l => Config.laneUpdate ctx gs l) :=
  rfl
@[simp] theorem laneUpdates_snap (ctx : Ctx c.nCoef) (g : GroupIx) : (b.laneUpdates ctx g).snap = b.snap := rfl
@[simp] theorem laneUpdates_alloc (ctx : Ctx c.nCoef) (g : GroupIx) : (b.laneUpdates ctx g).alloc = b.alloc := rfl
@[simp] theorem laneUpdates_nVoices (ctx : Ctx c.nCoef) (g : GroupIx) :
    (b.laneUpdates ctx g).nVoices = b.nVoices :=
  rfl
@[simp] theorem laneUpdates_nSimd (ctx : Ctx c.nCoef) (g : GroupIx) : (b.laneUpdates ctx g).nSimd = b.nSimd := rfl
@[simp] theorem laneUpdates_lastPoly (ctx : Ctx c.nCoef) (g : GroupIx) :
    (b.laneUpdates ctx g).lastPoly = b.lastPoly :=
  rfl
@[simp] theorem laneUpdates_curType (ctx : Ctx c.nCoef) (g : GroupIx) :
    (b.laneUpdates ctx g).curType = b.curType :=
  rfl
@[simp] theorem laneUpdates_curSub (ctx : Ctx c.nCoef) (g : GroupIx) : (b.laneUpdates ctx g).curSub = b.curSub := rfl
@[simp] theorem laneUpdates_fn (ctx : Ctx c.nCoef) (g : GroupIx) : (b.laneUpdates ctx g).fn = b.fn := rfl
@[simp] theorem laneUpdates_defsub (ctx : Ctx c.nCoef) (g : GroupIx) : (b.laneUpdates ctx g).defsub = b.defsub := rfl
@[simp] theorem laneUpdates_fs (ctx : Ctx c.nCoef) (g : GroupIx) : (b.laneUpdates ctx g).fs = b.fs := rfl
@[simp] theorem laneUpdates_pos (ctx : Ctx c.nCoef) (g : GroupIx) : (b.laneUpdates ctx g).pos = b.pos := rfl
@[simp] theorem laneUpdates_poly (ctx : Ctx c.nCoef) (g : GroupIx) : (b.laneUpdates ctx g).poly = b.poly := rfl
@[simp] theorem laneUpdates_vin (ctx : Ctx c.nCoef) (g : GroupIx) : (b.laneUpdates ctx g).vin = b.vin := rfl
@[simp] theorem laneUpdates_param (ctx : Ctx c.nCoef) (g : GroupIx) : (b.laneUpdates ctx g).param = b.param := rfl
@[simp] theorem laneUpdates_mods (ctx : Ctx c.nCoef) (g : GroupIx) : (b.laneUpdates ctx g).mods = b.mods := rfl
@[simp] theorem laneUpdates_vout (ctx : Ctx c.nCoef) (g : GroupIx) : (b.laneUpdates ctx g).vout = b.vout := rfl
@[simp] theorem laneUpdates_outch (ctx : Ctx c.nCoef) (g : GroupIx) : (b.laneUpdates ctx g).outch = b.outch := rfl

/-! `cinterp` -/

@[simp] theorem cinterp_groups (g : GroupIx) :
    (b.cinterp g).groups = b.groups.set g (Config.interp b.groups[g]) :=
  rfl
@[simp] theorem cinterp_snap (g : GroupIx) : (b.cinterp g).snap = b.snap := rfl
@[simp] theorem cinterp_alloc (g : GroupIx) : (b.cinterp g).alloc = b.alloc := rfl
@[simp] theorem cinterp_nVoices (g : GroupIx) : (b.cinterp g).nVoices = b.nVoices := rfl
@[simp] theorem cinterp_nSimd (g : GroupIx) : (b.cinterp g).nSimd = b.nSimd := rfl
@[simp] theorem cinterp_lastPoly (g : GroupIx) : (b.cinterp g).lastPoly = b.lastPoly := rfl
@[simp] theorem cinterp_curType (g : GroupIx) : (b.cinterp g).curType = b.curType := rfl
@[simp] theorem cinterp_curSub (g : GroupIx) : (b.cinterp g).curSub = b.curSub := rfl
@[simp] theorem cinterp_fn (g : GroupIx) : (b.cinterp g).fn = b.fn := rfl
@[simp] theorem cinterp_defsub (g : GroupIx) : (b.cinterp g).defsub = b.defsub := rfl
@[simp] theorem cinterp_fs (g : GroupIx) : (b.cinterp g).fs = b.fs := rfl
@[simp] theorem cinterp_pos (g : GroupIx) : (b.cinterp g).pos = b.pos := rfl
@[simp] theorem cinterp_poly (g : GroupIx) : (b.cinterp g).poly = b.poly := rfl
@[simp] theorem cinterp_vin (g : GroupIx) : (b.cinterp g).vin = b.vin := rfl
@[simp] theorem cinterp_param (g : GroupIx) : (b.cinterp g).param = b.param := rfl
@[simp] theorem cinterp_mods (g : GroupIx) : (b.cinterp g).mods = b.mods := rfl
@[simp] theorem cinterp_vout (g : GroupIx) : (b.cinterp g).vout = b.vout := rfl
@[simp] theorem cinterp_outch (g : GroupIx) : (b.cinterp g).outch = b.outch := rfl

/-! `setRate` -/

@[simp] theorem setRate_groups (rate : F) : (b.setRate rate).groups = b.groups := rfl
@[simp] theorem setRate_snap (rate : F) : (b.setRate rate).snap = b.snap := rfl
@[simp] theorem setRate_alloc (rate : F) : (b.setRate rate).alloc = b.alloc := rfl
@[simp] theorem setRate_nVoices (rate : F) : (b.setRate rate).nVoices = b.nVoices := rfl
@[simp] theorem setRate_nSimd (rate : F) : (b.setRate rate).nSimd = b.nSimd := rfl
@[simp] theorem setRate_lastPoly (rate : F) : (b.setRate rate).lastPoly = b.lastPoly := rfl
@[simp] theorem setRate_curType (rate : F) : (b.setRate rate).curType = b.curType := rfl
@[simp] theorem setRate_curSub (rate : F) : (b.setRate rate).curSub = b.curSub := rfl
@[simp] theorem setRate_fn (rate : F) : (b.setRate rate).fn = b.fn := rfl
@[simp] theorem setRate_defsub (rate : F) : (b.setRate rate).defsub = b.defsub := rfl
@[simp] theorem setRate_fs (rate : F) : (b.setRate rate).fs = Vector.replicate 8 rate := rfl
@[simp] theorem setRate_pos (rate : F) : (b.setRate rate).pos = b.pos := rfl
@[simp] theorem setRate_poly (rate : F) : (b.setRate rate).poly = b.poly := rfl
@[simp] theorem setRate_vin (rate : F) : (b.setRate rate).vin = b.vin := rfl
@[simp] theorem setRate_param (rate : F) : (b.setRate rate).param = b.param := rfl
@[simp] theorem setRate_mods (rate : F) : (b.setRate rate).mods = b.mods := rfl
@[simp] theorem setRate_vout (rate : F) : (b.setRate rate).vout = b.vout := rfl
@[simp] theorem setRate_outch (rate : F) : (b.setRate rate).outch = b.outch := rfl

/-! `latchPair` -/

@[simp] theorem latchPair_groups (t : Fin c.nTypes) (u : Nat) : (b.latchPair t u).groups = b.groups := rfl
@[simp] theorem latchPair_snap (t : Fin c.nTypes) (u : Nat) : (b.latchPair t u).snap = b.snap := rfl
@[simp] theorem latchPair_alloc (t : Fin c.nTypes) (u : Nat) : (b.latchPair t u).alloc = b.alloc := rfl
@[simp] theorem latchPair_nVoices (t : Fin c.nTypes) (u : Nat) : (b.latchPair t u).nVoices = b.nVoices := rfl
@[simp] theorem latchPair_nSimd (t : Fin c.nTypes) (u : Nat) : (b.latchPair t u).nSimd = b.nSimd := rfl
@[simp] theorem latchPair_lastPoly (t : Fin c.nTypes) (u : Nat) : (b.latchPair t u).lastPoly = b.lastPoly := rfl
@[simp] theorem latchPair_curType (t : Fin c.nTypes) (u : Nat) : (b.latchPair t u).curType = (t.val : Int) := rfl
@[simp] theorem latchPair_curSub (t : Fin c.nTypes) (u : Nat) : (b.latchPair t u).curSub = (u : Int) := rfl
@[simp] theorem latchPair_fn (t : Fin c.nTypes) (u : Nat) : (b.latchPair t u).fn = b.fn := rfl
@[simp] theorem latchPair_defsub (t : Fin c.nTypes) (u : Nat) : (b.latchPair t u).defsub = b.defsub.set t u := rfl
@[simp] theorem latchPair_fs (t : Fin c.nTypes) (u : Nat) : (b.latchPair t u).fs = b.fs := rfl
@[simp] theorem latchPair_pos (t : Fin c.nTypes) (u : Nat) : (b.latchPair t u).pos = b.pos := rfl
@[simp] theorem latchPair_poly (t : Fin c.nTypes) (u : Nat) : (b.latchPair t u).poly = b.poly := rfl
@[simp] theorem latchPair_vin (t : Fin c.nTypes) (u : Nat) : (b.latchPair t u).vin = b.vin := rfl
@[simp] theorem latchPair_param (t : Fin c.nTypes) (u : Nat) : (b.latchPair t u).param = b.param := rfl
@[simp] theorem latchPair_mods (t : Fin c.nTypes) (u : Nat) : (b.latchPair t u).mods = b.mods := rfl
@[simp] theorem latchPair_vout (t : Fin c.nTypes) (u : Nat) : (b.latchPair t u).vout = b.vout := rfl
@[simp] theorem latchPair_outch (t : Fin c.nTypes) (u : Nat) : (b.latchPair t u).outch = b.outch := rfl

/-! `resolve` -/

@[simp] theorem resolve_groups : b.resolve.groups = b.groups := rfl
@[simp] theorem resolve_snap : b.resolve.snap = b.snap := rfl
@[simp] theorem resolve_alloc : b.resolve.alloc = b.alloc := rfl
@[simp] theorem resolve_nVoices : b.resolve.nVoices = b.nVoices := rfl
@[simp] theorem resolve_nSimd : b.resolve.nSimd = b.nSimd := rfl
@[simp] theorem resolve_lastPoly : b.resolve.lastPoly = b.lastPoly := rfl
@[simp] theorem resolve_curType : b.resolve.curType = b.curType := rfl
@[simp] theorem resolve_curSub : b.resolve.curSub = b.curSub := rfl
@[simp] theorem resolve_fn :
    b.resolve.fn = if (c.filterFn b.curType.toNat b.curSub.toNat).isSome
      then some (b.curType.toNat, b.curSub.toNat) else none :=
  rfl
@[simp] theorem resolve_defsub : b.resolve.defsub = b.defsub := rfl
@[simp] theorem resolve_fs : b.resolve.fs = b.fs := rfl
@[simp] theorem resolve_pos : b.resolve.pos = b.pos := rfl
@[simp] theorem resolve_poly : b.resolve.poly = b.poly := rfl
@[simp] theorem resolve_vin : b.resolve.vin = b.vin := rfl
@[simp] theorem resolve_param : b.resolve.param = b.param := rfl
@[simp] theorem resolve_mods : b.resolve.mods = b.mods := rfl
@[simp] theorem resolve_vout : b.resolve.vout = b.vout := rfl
@[simp] theorem resolve_outch : b.resolve.outch = b.outch := rfl

/-! `scatter` -/

@[simp] theorem scatter_groups (out : Vector Vec4 8) : (b.scatter out).groups = b.groups := by simp only [scatter]
@[simp] theorem scatter_snap (out : Vector Vec4 8) : (b.scatter out).snap = b.snap := by simp only [scatter]
@[simp] theorem scatter_alloc (out : Vector Vec4 8) : (b.scatter out).alloc = b.alloc := by simp only [scatter]
@[simp] theorem scatter_nVoices (out : Vector Vec4 8) : (b.scatter out).nVoices = b.nVoices := by simp only [scatter]
@[simp] theorem scatter_nSimd (out : Vector Vec4 8) : (b.scatter out).nSimd = b.nSimd := by simp only [scatter]
@[simp] theorem scatter_lastPoly (out : Vector Vec4 8) : (b.scatter out).lastPoly = b.lastPoly := by simp only [scatter]
@[simp] theorem scatter_curType (out : Vector Vec4 8) : (b.scatter out).curType = b.curType := by simp only [scatter]
@[simp] theorem scatter_curSub (out : Vector Vec4 8) : (b.scatter out).curSub = b.curSub := by simp only [scatter]
@[simp] theorem scatter_fn (out : Vector Vec4 8) : (b.scatter out).fn = b.fn := by simp only [scatter]
@[simp] theorem scatter_defsub (out : Vector Vec4 8) : (b.scatter out).defsub = b.defsub := by simp only [scatter]
@[simp] theorem scatter_fs (out : Vector Vec4 8) : (b.scatter out).fs = b.fs := by simp only [scatter]
@[simp] theorem scatter_pos (out : Vector Vec4 8) : (b.scatter out).pos = b.pos := by simp only [scatter]
@[simp] theorem scatter_poly (out : Vector Vec4 8) : (b.scatter out).poly = b.poly := by simp only [scatter]
@[simp] theorem scatter_vin (out : Vector Vec4 8) : (b.scatter out).vin = b.vin := by simp only [scatter]
@[simp] theorem scatter_param (out : Vector Vec4 8) : (b.scatter out).param = b.param := by simp only [scatter]
@[simp] theorem scatter_mods (out : Vector Vec4 8) : (b.scatter out).mods = b.mods := by simp only [scatter]
@[simp] theorem scatter_vout (out : Vector Vec4 8) :
    (b.scatter out).vout = .build fun sd => Vector.ofFn fun v => b.voiceOut out sd v :=
  rfl
@[simp] theorem scatter_outch (out : Vector Vec4 8) :
    (b.scatter out).outch = .build fun sd => (max (b.lastPoly.get sd) 1).toNat :=
  rfl

end Block

end Sys2Proof.Machine
end

