-- ==== Sys2Proof/Laws/Ops.lean ====
section
/-! SUPPORT. What the shared operations of Ops.lean can do: the loops, lane addresses, delay-buffer accesses, the command
port and the operand check. -/

namespace Sys2Proof.Machine

/-! The loops. -/

/-- What every round of a group loop keeps, the loop keeps. -/
theorem forGroups_keeps {α : Type} (P : α → Prop) {f : α → GroupIx → α} (hf : ∀ a g, P a → P (f a g)) {a : α}
    (h : P a) : P (forGroups a f) := by
  unfold forGroups
  generalize ([0, 1, 2, 3, 4, 5, 6, 7] : List GroupIx) = l
  induction l generalizing a with
  | nil => exact h
  | cons g l ih => exact ih (hf a g h)

/-- What every round of a lane loop keeps, the loop keeps. -/
theorem forLanes_keeps {α : Type} (P : α → Prop) {f : α → LaneIx → α} (hf : ∀ a l, P a → P (f a l)) {a : α}
    (h : P a) : P (forLanes a f) := by
  unfold forLanes
  generalize ([0, 1, 2, 3] : List LaneIx) = ls
  induction ls generalizing a with
  | nil => exact h
  | cons l ls ih => exact ih (hf a l h)

/-- A list that meets every index once. -/
theorem mem_groups (g : GroupIx) : g ∈ ([0, 1, 2, 3, 4, 5, 6, 7] : List GroupIx) := by decide +revert

/-- A loop whose round for a group writes only that group's part of the state, from that part alone: after it every part is
what its own round makes of the part before the loop. `part a g` is the part of group `g`, `new` what its round makes
of it, `P` what the rounds keep. -/
theorem forGroups_parts {α β : Type} (part : α → GroupIx → β) (P : α → Prop) (new : GroupIx → β → β)
    {f : α → GroupIx → α} (hP : ∀ a g, P a → P (f a g)) (hsame : ∀ a g, P a → part (f a g) g = new g (part a g))
    (hother : ∀ a g g', P a → g' ≠ g → part (f a g) g' = part a g') {a : α} (h : P a) (g : GroupIx) :
    part (forGroups a f) g = new g (part a g) := by
  have key : ∀ (l : List GroupIx) (a : α), P a → l.Nodup →
      part (l.foldl f a) g = if g ∈ l then new g (part a g) else part a g := by
    intro l
    induction l with
    | nil => intro a _ _; simp
    | cons k l ih =>
      intro a ha hl
      rw [List.foldl_cons, ih (f a k) (hP a k ha) (List.nodup_cons.mp hl).2]
      by_cases hgk : g = k
      · subst hgk
        simp [(List.nodup_cons.mp hl).1, hsame a g ha]
      · simp [hgk, hother a k g ha hgk]
  have := key [0, 1, 2, 3, 4, 5, 6, 7] a h (by decide)
  rw [if_pos (mem_groups g)] at this
  exact this

/-- The same for the lanes of a group. -/
theorem forLanes_unfold {α : Type} (a : α) (f : α → LaneIx → α) : forLanes a f = f (f (f (f a 0) 1) 2) 3 := rfl

/-! Lane addresses (R74, R102). -/

theorem slot_eq (q : Slot) : q.val = 4 * (slotGroup q).val + (slotLane q).val := by
  simp only [slotGroup, slotLane]; omega

theorem slot_ext {q q' : Slot} (hg : slotGroup q = slotGroup q') (hl : slotLane q = slotLane q') : q = q' := by
  apply Fin.ext
  rw [slot_eq q, slot_eq q', hg, hl]

@[simp] theorem laneGet_laneSet_same (t : Vector Vec4 8) (q : Slot) (x : F) : laneGet (laneSet t q x) q = x := by
  simp [laneGet, laneSet]

theorem laneGet_laneSet_other (t : Vector Vec4 8) {q q' : Slot} (x : F) (h : q' ≠ q) :
    laneGet (laneSet t q x) q' = laneGet t q' := by
  unfold laneGet laneSet
  by_cases hg : slotGroup q' = slotGroup q
  · have hl : (slotLane q).val ≠ (slotLane q').val := fun e => h (slot_ext hg (Fin.ext e.symm))
    simp [hg, Vector.getElem_set_ne, hl]
  · have hg' : (slotGroup q).val ≠ (slotGroup q').val := fun e => hg (Fin.ext e.symm)
    simp [Vector.getElem_set_ne, hg']

/-! Delay buffers (R71, R72): a read after a write of the same element gives the value, every other element is left. -/

variable {a b n : Nat}

@[simp] theorem delayRead_delayWrite_same (gs : GroupState a b n) (l : LaneIx) (i : Fin n) (v : F) :
    delayRead (delayWrite gs l i v) l i = v := by
  simp [delayRead, delayWrite]

theorem delayRead_delayWrite_other (gs : GroupState a b n) {l l' : LaneIx} {i i' : Fin n} (v : F)
    (h : l' ≠ l ∨ i' ≠ i) : delayRead (delayWrite gs l i v) l' i' = delayRead gs l' i' := by
  unfold delayRead delayWrite
  by_cases hl : l' = l
  · subst hl
    have hi : i.val ≠ i'.val := fun e => (h.resolve_left (by simp)) (Fin.ext e.symm)
    simp [Vector.getElem_set_ne, hi]
  · have hl' : l.val ≠ l'.val := fun e => hl (Fin.ext e.symm)
    simp [Vector.getElem_set_ne, hl']

/-! Group access. -/

theorem setGroup_other {c : Config} (bl : Block c) {g g' : GroupIx} (gs : c.GS) (h : g' ≠ g) :
    (bl.setGroup g gs).groups[g'] = bl.groups[g'] := by
  have h' : g.val ≠ g'.val := fun e => h (Fin.ext e.symm)
  simp [Vector.getElem_set_ne, h']

theorem setGroup_same {c : Config} (bl : Block c) (g : GroupIx) (gs : c.GS) :
    (bl.setGroup g gs).groups[g] = gs := by simp

/-! The command port and the operand check. -/

/-- What `fetch` can do: nothing is presented, or it takes the first word. -/
theorem fetch_cases (s : State) :
    (s.cmds = [] ∧ s.fetch = none) ∨ ∃ w rest, s.cmds = w :: rest ∧ s.fetch = some (w, { s with cmds := rest }) := by
  unfold State.fetch
  cases h : s.cmds with
  | nil => exact .inl ⟨rfl, rfl⟩
  | cons w rest => exact .inr ⟨w, rest, rfl, rfl⟩

/-- What `accept` can do: the next state, if no operand is out of range. -/
theorem accept_next {why : Option Reserved} {s t : State} :
    accept why s = .next t ↔ why = none ∧ s = t := by
  cases why <;> simp [accept]

/-- What `accept` refuses. -/
theorem accept_refused {why : Option Reserved} {s : State} {r : Refusal} :
    accept why s = .refused r ↔ ∃ w, why = some w ∧ r = .reserved w := by
  cases why with
  | none => simp [accept]
  | some w => simp [accept, eq_comm]

/-- `accept` never faults. -/
theorem accept_not_fault {why : Option Reserved} {s : State} (f : Fault) : accept why s ≠ .fault f := nomatch f

end Sys2Proof.Machine
end

