-- ==== Sys2Proof/Laws/Params.lean ====
section
/-! SUPPORT. What the configuration functions can change: the field lemmas of `laneUpdate`, `interp` and `guardFilter`
(R185, R189, R206), and the cases of the scale constants (R10). -/

namespace Sys2Proof.Config

open Sys2Proof.Machine

variable {c : Config}

@[simp] theorem laneUpdate_wp (ctx : Ctx c.nCoef) (gs : c.GS) (l : LaneIx) : (laneUpdate ctx gs l).wp = gs.wp := rfl
@[simp] theorem laneUpdate_active (ctx : Ctx c.nCoef) (gs : c.GS) (l : LaneIx) :
    (laneUpdate ctx gs l).active = gs.active := rfl
@[simp] theorem laneUpdate_db (ctx : Ctx c.nCoef) (gs : c.GS) (l : LaneIx) : (laneUpdate ctx gs l).db = gs.db := rfl

/-- The lane of `COEF` that a lane update writes, and those it leaves (R185). -/
theorem laneUpdate_coef (ctx : Ctx c.nCoef) (gs : c.GS) (l l' : LaneIx) (i : Fin c.nCoef) :
    (laneUpdate ctx gs l).coef[i][l'] = if l' = l then c.choices.laneCoef ctx i else gs.coef[i][l'] := by
  simp [laneUpdate, Vector.getElem_set, Fin.ext_iff, eq_comm]

/-- The lane of `RAMP` that a lane update writes, and those it leaves (R185). -/
theorem laneUpdate_ramp (ctx : Ctx c.nCoef) (gs : c.GS) (l l' : LaneIx) (i : Fin c.nCoef) :
    (laneUpdate ctx gs l).ramp[i][l'] = if l' = l then c.choices.laneRamp ctx i else gs.ramp[i][l'] := by
  simp [laneUpdate, Vector.getElem_set, Fin.ext_iff, eq_comm]

@[simp] theorem interp_reg (gs : c.GS) : (interp gs).reg = gs.reg := rfl
@[simp] theorem interp_ramp (gs : c.GS) : (interp gs).ramp = gs.ramp := rfl
@[simp] theorem interp_wp (gs : c.GS) : (interp gs).wp = gs.wp := rfl
@[simp] theorem interp_active (gs : c.GS) : (interp gs).active = gs.active := rfl
@[simp] theorem interp_db (gs : c.GS) : (interp gs).db = gs.db := rfl

theorem interp_coef (gs : c.GS) (i : Fin c.nCoef) (l : LaneIx) :
    (interp gs).coef[i][l] = c.interpValue i gs.coef[i][l] gs.ramp[i][l] := by
  simp [interp]

@[simp] theorem guardFilter_ramp (f : c.GS → Vec4 → c.GS × Vec4) (gs : c.GS) (x : Vec4) :
    (guardFilter f gs x).1.ramp = gs.ramp := rfl

/-- A guarded filter function from a state with another ramp: the ramp is all that differs (R70). -/
theorem guardFilter_with_ramp (f : c.GS → Vec4 → c.GS × Vec4) (gs : c.GS) (x : Vec4) (ramp : Vector Vec4 c.nCoef) :
    guardFilter f { gs with ramp := ramp } x = ({ (guardFilter f gs x).1 with ramp := ramp }, (guardFilter f gs x).2) :=
  rfl

/-- Every function of the strategy table leaves the ramp (R206 (c)). -/
theorem filterFn_ramp {t s : Nat} {f : c.GS → Vec4 → c.GS × Vec4} (h : c.filterFn t s = some f) (gs : c.GS)
    (x : Vec4) : (f gs x).1.ramp = gs.ramp := by
  unfold filterFn at h
  obtain ⟨g, -, rfl⟩ := Option.map_eq_some_iff.mp h
  exact guardFilter_ramp g gs x

/-- The four lane updates of a group leave its write pointers, mask and delay buffers (R185). -/
theorem laneUpdates_keep (ctx : Ctx c.nCoef) (gs : c.GS) :
    let r := forLanes gs fun g l => laneUpdate ctx g l
    r.wp = gs.wp ∧ r.active = gs.active ∧ r.db = gs.db := by
  simp [forLanes_unfold]

/-- What the four lane updates of a group leave in its coefficients and ramps: one trajectory in all lanes (R183). -/
theorem laneUpdates_lane (ctx : Ctx c.nCoef) (gs : c.GS) (i : Fin c.nCoef) (l : LaneIx) :
    let r := forLanes gs fun g l => laneUpdate ctx g l
    r.coef[i][l] = c.choices.laneCoef ctx i ∧ r.ramp[i][l] = c.choices.laneRamp ctx i := by
  fin_cases l <;> simp [forLanes_unfold, laneUpdate]

/-- `IN_SCALE` is the raw value where that is finite and nonzero, else 1.0 (R10). -/
theorem inScale_cases (c : Config) :
    (Float32.isFiniteNonzero c.choices.inScaleRaw ∧ c.inScale = c.choices.inScaleRaw) ∨ c.inScale = 0x3F800000#32 := by
  unfold inScale; split <;> simp_all

/-- `OUT_SCALE` is the raw value where that is legal, else the finite value nearest to `1 / IN_SCALE` (R10). -/
theorem outScale_cases (c : Config) :
    (c.outScaleLegal c.choices.outScaleRaw ∧ c.outScale = c.choices.outScaleRaw) ∨
      c.outScale = c.reciprocal c.inScale := by
  unfold outScale; split <;> simp_all

theorem subtypes_pos (c : Config) (t : Nat) : 1 ≤ c.subtypes t := by
  unfold subtypes; omega

end Sys2Proof.Config
end

