-- ==== Sys2Proof/Laws/PerInstr.lean ====
section
/-! SUPPORT. The per-instruction family `ZeroField`: the field `Z` of every command's word is zero (R112). -/

namespace Sys2Proof.Laws

/-- The must-be-zero field `Z` of the command's word (R112). -/
def ZeroField.Statement (i : Instr) : Prop := (fieldsOf (encode i)).z = 0#8

theorem ZeroField.reset : ZeroField.Statement .reset := by
  unfold ZeroField.Statement encode; rw [fieldsOf_word]
theorem ZeroField.tick : ZeroField.Statement .tick := by
  unfold ZeroField.Statement encode; rw [fieldsOf_word]
theorem ZeroField.setrate (rate : F) : ZeroField.Statement (.setrate rate) := by
  unfold ZeroField.Statement encode; rw [fieldsOf_word]
theorem ZeroField.setpoly (side : Side) (count : Int) : ZeroField.Statement (.setpoly side count) := by
  unfold ZeroField.Statement encode; rw [fieldsOf_word]
theorem ZeroField.wrin (side : Side) (channel : Channel) (voltage : F) :
    ZeroField.Statement (.wrin side channel voltage) := by
  unfold ZeroField.Statement encode; rw [fieldsOf_word]
theorem ZeroField.wrparam (slot : ParamSlot) (data : BitVec 32) : ZeroField.Statement (.wrparam slot data) := by
  unfold ZeroField.Statement encode; rw [fieldsOf_word]
theorem ZeroField.wrmod (parameter : Fin 5) (source : Fin 4) (value : F) :
    ZeroField.Statement (.wrmod parameter source value) := by
  unfold ZeroField.Statement encode; rw [fieldsOf_word]
theorem ZeroField.wrdef (type : BitVec 8) (subtype : Int) : ZeroField.Statement (.wrdef type subtype) := by
  unfold ZeroField.Statement encode; rw [fieldsOf_word]
theorem ZeroField.rdout (side : Side) (channel : Channel) : ZeroField.Statement (.rdout side channel) := by
  unfold ZeroField.Statement encode; rw [fieldsOf_word]
theorem ZeroField.rdch (side : Side) : ZeroField.Statement (.rdch side) := by
  unfold ZeroField.Statement encode; rw [fieldsOf_word]
theorem ZeroField.rdtype : ZeroField.Statement .rdtype := by
  unfold ZeroField.Statement encode; rw [fieldsOf_word]
theorem ZeroField.rdsub : ZeroField.Statement .rdsub := by
  unfold ZeroField.Statement encode; rw [fieldsOf_word]
theorem ZeroField.rddef (type : BitVec 8) : ZeroField.Statement (.rddef type) := by
  unfold ZeroField.Statement encode; rw [fieldsOf_word]
theorem ZeroField.rdparam (slot : ParamSlot) : ZeroField.Statement (.rdparam slot) := by
  unfold ZeroField.Statement encode; rw [fieldsOf_word]

end Sys2Proof.Laws
end

