-- ==== Sys2Proof/Laws/Store.lean ====
section
/-! SUPPORT. The field lemmas of the full reset of one group, and of the full reset and the snapshot pair by group (R161,
R164, R165). -/

namespace Sys2Proof.Machine

variable {a b n : Nat}

@[simp] theorem clearGroup_reg (gs : GroupState a b (n + 1)) : (clearGroup gs).reg = Vector.replicate _ zero4 := rfl
@[simp] theorem clearGroup_coef (gs : GroupState a b (n + 1)) : (clearGroup gs).coef = Vector.replicate _ zero4 := rfl
@[simp] theorem clearGroup_ramp (gs : GroupState a b (n + 1)) : (clearGroup gs).ramp = Vector.replicate _ zero4 := rfl
@[simp] theorem clearGroup_wp (gs : GroupState a b (n + 1)) : (clearGroup gs).wp = Vector.replicate 4 0 := rfl
@[simp] theorem clearGroup_active (gs : GroupState a b (n + 1)) : (clearGroup gs).active = 0#4 := rfl
@[simp] theorem clearGroup_db (gs : GroupState a b (n + 1)) : (clearGroup gs).db = gs.db := rfl

variable {c : Config}

theorem freset_group (bl : Block c) (g : GroupIx) : bl.freset.groups[g] = clearGroup bl.groups[g] := by
  simp

theorem freset_snapshot (bl : Block c) (g : GroupIx) : bl.freset.snap[g] = Vector.replicate _ zero4 := by
  simp

theorem snapshot_same (bl : Block c) (g : GroupIx) : (bl.snapshot g).snap[g] = bl.groups[g].reg := by simp

theorem snapshot_other (bl : Block c) {g g' : GroupIx} (h : g' ≠ g) : (bl.snapshot g).snap[g'] = bl.snap[g'] := by
  have h' : g.val ≠ g'.val := fun e => h (Fin.ext e.symm)
  simp [Vector.getElem_set_ne, h']

theorem restore_same (bl : Block c) (g : GroupIx) :
    (bl.restore g).groups[g] = { bl.groups[g] with reg := bl.snap[g] } := by simp

theorem restore_other (bl : Block c) {g g' : GroupIx} (h : g' ≠ g) :
    (bl.restore g).groups[g'] = bl.groups[g'] := by
  have h' : g.val ≠ g'.val := fun e => h (Fin.ext e.symm)
  simp [Vector.getElem_set_ne, h']

end Sys2Proof.Machine
end

