-- ==== Sys2Proof/Laws/Scheduler.lean ====
section
/-! SUPPORT. What the Coefficient Scheduler can do: `CSCHED` in closed form (R181, R187). -/

namespace Sys2Proof.Machine.Block

variable {c : Config}

/-- Two blocks that differ at most in the filter units and the snapshot caches. -/
def SameBesidesGroups (b b' : Block c) : Prop := b' = { b with groups := b'.groups, snap := b'.snap }

theorem SameBesidesGroups.refl (b : Block c) : b.SameBesidesGroups b := rfl

theorem SameBesidesGroups.trans {b b' b'' : Block c} (h : b.SameBesidesGroups b') (h' : b'.SameBesidesGroups b'') :
    b.SameBesidesGroups b'' := by
  unfold SameBesidesGroups at *
  rw [h', h]

theorem setGroup_sameBesides (b : Block c) (g : GroupIx) (gs : c.GS) : b.SameBesidesGroups (b.setGroup g gs) := rfl

/-- The inputs of `CoefTarget` for a group come from the group and from components that `CSCHED` leaves. -/
theorem coefInputs_congr {b b' : Block c} (h : b.SameBesidesGroups b') {g : GroupIx}
    (hg : b'.groups[g] = b.groups[g]) : b'.coefInputs g = b.coefInputs g := by
  unfold SameBesidesGroups at h
  unfold coefInputs laneZero
  rw [hg, h]

/-- What `CSCHED` makes of one group: the lane updates under the group's own context, with the register file as it was. -/
def scheduled (b : Block c) (g : GroupIx) : c.GS :=
  { forLanes b.groups[g] (fun gs l => Config.laneUpdate (c.coefTarget (b.coefInputs g)) gs l) with
    reg := b.groups[g].reg }

theorem scheduleGroup_sameBesides (b : Block c) (g : GroupIx) : b.SameBesidesGroups (b.scheduleGroup g) := by
  unfold SameBesidesGroups
  simp only [scheduleGroup, laneUpdates, restore, snapshot, setGroup]

theorem scheduleGroup_same (b : Block c) (g : GroupIx) : (b.scheduleGroup g).groups[g] = b.scheduled g := by
  have h : (b.snapshot g).coefInputs g = b.coefInputs g :=
    coefInputs_congr (b := b) (b' := b.snapshot g) (show _ = _ from rfl) rfl
  unfold scheduleGroup scheduled
  simp only [h]
  simp

theorem scheduleGroup_other (b : Block c) {g g' : GroupIx} (h : g' ≠ g) :
    (b.scheduleGroup g).groups[g'] = b.groups[g'] := by
  unfold scheduleGroup
  rw [restore_other _ h, laneUpdates, setGroup_other _ _ h]
  simp

theorem scheduleGroup_snap_same (b : Block c) (g : GroupIx) : (b.scheduleGroup g).snap[g] = b.groups[g].reg := by
  simp [scheduleGroup]

theorem scheduleGroup_snap_other (b : Block c) {g g' : GroupIx} (h : g' ≠ g) :
    (b.scheduleGroup g).snap[g'] = b.snap[g'] := by
  have h' : g.val ≠ g'.val := fun e => h (Fin.ext e.symm)
  simp [scheduleGroup, Vector.getElem_set_ne, h']

/-- `CSCHED` changes the filter units and the snapshot caches only (R166). -/
theorem csched_sameBesides (b : Block c) : b.SameBesidesGroups b.csched :=
  forGroups_keeps (fun b' => b.SameBesidesGroups b') (fun _ g h => h.trans (scheduleGroup_sameBesides _ g)) (.refl b)

/-- Every group after `CSCHED`. -/
theorem csched_group (b : Block c) (g : GroupIx) : b.csched.groups[g] = b.scheduled g := by
  -- the round of a group reads that group, its own part, and nothing else that a round changes
  have := forGroups_parts (fun (b' : Block c) g => (b'.groups[g] : c.GS))
    (fun b' => b.SameBesidesGroups b')
    (fun g gs => ({ b with groups := b.groups.set g gs } : Block c).scheduled g)
    (f := scheduleGroup) (fun _ g h => h.trans (scheduleGroup_sameBesides _ g))
    (fun b' g h => by
      have hs : ({ b with groups := b.groups.set g b'.groups[g] } : Block c).groups[g] = b'.groups[g] := by simp
      have hi := coefInputs_congr (b := b') (b' := { b with groups := b.groups.set g b'.groups[g] }) (g := g)
        (by unfold SameBesidesGroups at *; rw [h]) hs
      change (b'.scheduleGroup g).groups[g] = _
      rw [scheduleGroup_same]
      unfold scheduled
      rw [hi, hs])
    (fun b' g g' _ hne => scheduleGroup_other b' hne) (.refl b) g
  refine this.trans ?_
  have hs : ({ b with groups := b.groups.set g b.groups[g] } : Block c) = b := by simp
  change ({ b with groups := b.groups.set g b.groups[g] } : Block c).scheduled g = _
  rw [hs]

/-- Every snapshot cache after `CSCHED` holds the group's register file (R187). -/
theorem csched_snap (b : Block c) (g : GroupIx) : b.csched.snap[g] = b.groups[g].reg := by
  have := forGroups_parts (fun (b' : Block c) g => ((b'.groups[g].reg, b'.snap[g]) : _ × _))
    (fun _ => True) (fun _ p => (p.1, p.1)) (f := scheduleGroup) (fun _ _ _ => trivial)
    (fun b' g _ => by rw [scheduleGroup_same, scheduleGroup_snap_same]; rfl)
    (fun b' g g' _ hne => by rw [scheduleGroup_other b' hne, scheduleGroup_snap_other b' hne]) (a := b) trivial g
  exact congrArg Prod.snd this

end Sys2Proof.Machine.Block
end

