-- ==== Sys2Proof/Laws/Selector.lean ====
section
/-! SUPPORT. What the Filter Dispatcher's procedures can do (43_filter_dispatcher.md). -/

namespace Sys2Proof.Machine.Block

variable {c : Config}

/-- After `RESOLVE` the resolved function is the strategy table's (R203). -/
theorem resolve_resolved (b : Block c) : b.resolve.resolved = c.filterFn b.curType.toNat b.curSub.toNat := by
  unfold resolved resolve
  cases h : c.filterFn b.curType.toNat b.curSub.toNat <;> simp [h]

/-- The clamped subtype is in range (R201). -/
theorem selectedSub_lt (b : Block c) : b.selectedSub < c.subtypes b.selectedType.val := by
  have h := Config.subtypes_pos c b.selectedType.val
  unfold selectedSub clamp
  omega

/-- The two cases of `SELCHK` (R209): a changed pair runs the full reset first. -/
theorem selchk_cases (b : Block c) :
    (b.PairChanged ∧ b.selchk = (b.freset.latchPair b.selectedType b.selectedSub).resolve) ∨
    (¬ b.PairChanged ∧ b.selchk = (b.latchPair b.selectedType b.selectedSub).resolve) := by
  unfold selchk
  by_cases h : b.PairChanged
  · exact .inl ⟨h, by rw [if_pos h]⟩
  · exact .inr ⟨h, by rw [if_neg h]⟩

theorem selchk_groups (b : Block c) : b.selchk.groups = if b.PairChanged then b.freset.groups else b.groups := by
  unfold selchk; split <;> simp
theorem selchk_snap (b : Block c) : b.selchk.snap = if b.PairChanged then b.freset.snap else b.snap := by
  unfold selchk; split <;> simp
@[simp] theorem selchk_alloc (b : Block c) : b.selchk.alloc = b.alloc := by unfold selchk; split <;> simp
@[simp] theorem selchk_nVoices (b : Block c) : b.selchk.nVoices = b.nVoices := by unfold selchk; split <;> simp
@[simp] theorem selchk_nSimd (b : Block c) : b.selchk.nSimd = b.nSimd := by unfold selchk; split <;> simp
@[simp] theorem selchk_lastPoly (b : Block c) : b.selchk.lastPoly = b.lastPoly := by unfold selchk; split <;> simp
@[simp] theorem selchk_curType (b : Block c) : b.selchk.curType = (b.selectedType.val : Int) := by
  unfold selchk; split <;> simp
@[simp] theorem selchk_curSub (b : Block c) : b.selchk.curSub = (b.selectedSub : Int) := by
  unfold selchk; split <;> simp
theorem selchk_fn (b : Block c) :
    b.selchk.fn = if (c.filterFn b.selectedType.val b.selectedSub).isSome
      then some (b.selectedType.val, b.selectedSub) else none := by
  unfold selchk; split <;> simp <;> rfl
@[simp] theorem selchk_defsub (b : Block c) : b.selchk.defsub = b.defsub.set b.selectedType b.selectedSub := by
  unfold selchk; split <;> simp
@[simp] theorem selchk_fs (b : Block c) : b.selchk.fs = b.fs := by unfold selchk; split <;> simp
@[simp] theorem selchk_pos (b : Block c) : b.selchk.pos = b.pos := by unfold selchk; split <;> simp
@[simp] theorem selchk_poly (b : Block c) : b.selchk.poly = b.poly := by unfold selchk; split <;> simp
@[simp] theorem selchk_vin (b : Block c) : b.selchk.vin = b.vin := by unfold selchk; split <;> simp
@[simp] theorem selchk_param (b : Block c) : b.selchk.param = b.param := by unfold selchk; split <;> simp
@[simp] theorem selchk_mods (b : Block c) : b.selchk.mods = b.mods := by unfold selchk; split <;> simp
@[simp] theorem selchk_vout (b : Block c) : b.selchk.vout = b.vout := by unfold selchk; split <;> simp
@[simp] theorem selchk_outch (b : Block c) : b.selchk.outch = b.outch := by unfold selchk; split <;> simp

/-- The function that `SELCHK` leaves resolved (R203). -/
theorem selchk_resolved (b : Block c) : b.selchk.resolved = c.filterFn b.selectedType.val b.selectedSub := by
  rcases b.selchk_cases with ⟨-, h⟩ | ⟨-, h⟩ <;> rw [h, resolve_resolved] <;> simp

/-- What one group's sample is: its output under the resolved function, or its input in bypass, with the state it leaves
(R205). -/
def dispatched (b : Block c) (gs : c.GS) (x : Vec4) : c.GS × Vec4 :=
  match b.resolved with
  | none => (gs, x)
  | some f => f gs x

theorem dispatch_group_same (b : Block c) (inp out : Vector Vec4 8) (g : GroupIx) :
    (b.dispatch inp out g).1.groups[g] = (b.dispatched b.groups[g] inp[g]).1 := by
  unfold dispatch dispatched
  cases b.resolved <;> simp

theorem dispatch_group_other (b : Block c) (inp out : Vector Vec4 8) {g g' : GroupIx} (h : g' ≠ g) :
    (b.dispatch inp out g).1.groups[g'] = b.groups[g'] := by
  unfold dispatch
  cases b.resolved
  · rfl
  · exact setGroup_other b _ h

theorem dispatch_out_same (b : Block c) (inp out : Vector Vec4 8) (g : GroupIx) :
    (b.dispatch inp out g).2[g] = (b.dispatched b.groups[g] inp[g]).2 := by
  unfold dispatch dispatched
  cases b.resolved <;> simp

theorem dispatch_out_other (b : Block c) (inp out : Vector Vec4 8) {g g' : GroupIx} (h : g' ≠ g) :
    (b.dispatch inp out g).2[g'] = out[g'] := by
  have h' : g.val ≠ g'.val := fun e => h (Fin.ext e.symm)
  unfold dispatch
  cases b.resolved <;> simp [Vector.getElem_set_ne, h']

/-- `DISPATCH` leaves everything but the filter units (R166). -/
theorem dispatch_sameBesides (b : Block c) (inp out : Vector Vec4 8) (g : GroupIx) :
    b.SameBesidesGroups (b.dispatch inp out g).1 := by
  unfold dispatch
  cases b.resolved
  · exact .refl b
  · exact setGroup_sameBesides b g _

@[simp] theorem dispatch_snap (b : Block c) (inp out : Vector Vec4 8) (g : GroupIx) :
    (b.dispatch inp out g).1.snap = b.snap := by
  unfold dispatch
  cases b.resolved <;> rfl

end Sys2Proof.Machine.Block
end

