-- ==== Sys2Proof/Laws/Processor.lean ====
section
/-! SUPPORT. What the Block Processor's procedures can do (44_block_processor.md). -/

namespace Sys2Proof.Machine.Block

variable {c : Config}

/-! `BOUNDARY`. -/

/-- The two cases of the polyphony step (R224). -/
theorem checkPoly_cases (b : Block c) :
    (b.PolyChanged ∧
      b.checkPoly = ({ b with lastPoly := b.poly } : Block c).valloc (b.poly.get .left) (b.poly.get .right)) ∨
    (¬ b.PolyChanged ∧ b.checkPoly = b) := by
  unfold checkPoly
  by_cases h : b.PolyChanged
  · exact .inl ⟨h, if_pos h⟩
  · exact .inr ⟨h, if_neg h⟩

/-- After the polyphony step the latched counts are the ports' (R224). -/
@[simp] theorem checkPoly_lastPoly (b : Block c) : b.checkPoly.lastPoly = b.poly := by
  rcases b.checkPoly_cases with ⟨-, h⟩ | ⟨hn, h⟩
  · rw [h, valloc_lastPoly]
  · rw [h]
    simp only [PolyChanged, not_or, not_not] at hn
    exact (PerSide.ext_get fun sd => by cases sd; exacts [hn.1, hn.2]).symm

theorem checkPoly_groups (b : Block c) :
    b.checkPoly.groups = if b.PolyChanged then b.groups.map clearGroup else b.groups := by
  unfold checkPoly; split <;> simp
@[simp] theorem checkPoly_curType (b : Block c) : b.checkPoly.curType = b.curType := by
  unfold checkPoly; split <;> simp
@[simp] theorem checkPoly_curSub (b : Block c) : b.checkPoly.curSub = b.curSub := by
  unfold checkPoly; split <;> simp
@[simp] theorem checkPoly_fn (b : Block c) : b.checkPoly.fn = b.fn := by unfold checkPoly; split <;> simp
@[simp] theorem checkPoly_defsub (b : Block c) : b.checkPoly.defsub = b.defsub := by
  unfold checkPoly; split <;> simp
@[simp] theorem checkPoly_fs (b : Block c) : b.checkPoly.fs = b.fs := by unfold checkPoly; split <;> simp
@[simp] theorem checkPoly_poly (b : Block c) : b.checkPoly.poly = b.poly := by unfold checkPoly; split <;> simp
@[simp] theorem checkPoly_vin (b : Block c) : b.checkPoly.vin = b.vin := by unfold checkPoly; split <;> simp
@[simp] theorem checkPoly_param (b : Block c) : b.checkPoly.param = b.param := by unfold checkPoly; split <;> simp
@[simp] theorem checkPoly_mods (b : Block c) : b.checkPoly.mods = b.mods := by unfold checkPoly; split <;> simp
@[simp] theorem checkPoly_vout (b : Block c) : b.checkPoly.vout = b.vout := by unfold checkPoly; split <;> simp
@[simp] theorem checkPoly_outch (b : Block c) : b.checkPoly.outch = b.outch := by unfold checkPoly; split <;> simp

/-- `BOUNDARY` in closed form: the block that the scheduler runs on, with the scheduler's filter units and snapshots, and
the position at zero (R223). -/
theorem boundary_eq (b : Block c) :
    b.boundary = { b.selchk.checkPoly with
      groups := b.selchk.checkPoly.csched.groups
      snap := b.selchk.checkPoly.csched.snap
      pos := 0 } := by
  have h := csched_sameBesides b.selchk.checkPoly
  unfold SameBesidesGroups at h
  unfold boundary
  rw [h]

theorem boundary_groups (b : Block c) : b.boundary.groups = b.selchk.checkPoly.csched.groups := by
  simp only [boundary]
theorem boundary_snaps (b : Block c) : b.boundary.snap = b.selchk.checkPoly.csched.snap := by
  simp only [boundary]

/-- Every group after a boundary. -/
theorem boundary_group (b : Block c) (g : GroupIx) : b.boundary.groups[g] = b.selchk.checkPoly.scheduled g := by
  rw [boundary_groups, csched_group]

/-- Every snapshot cache after a boundary. -/
theorem boundary_snap (b : Block c) (g : GroupIx) : b.boundary.snap[g] = b.selchk.checkPoly.groups[g].reg := by
  rw [boundary_snaps, csched_snap]

@[simp] theorem boundary_pos (b : Block c) : b.boundary.pos = 0 := by simp only [boundary]
@[simp] theorem boundary_lastPoly (b : Block c) : b.boundary.lastPoly = b.poly := by rw [boundary_eq]; simp
@[simp] theorem boundary_curType (b : Block c) : b.boundary.curType = (b.selectedType.val : Int) := by
  rw [boundary_eq]; simp
@[simp] theorem boundary_curSub (b : Block c) : b.boundary.curSub = (b.selectedSub : Int) := by
  rw [boundary_eq]; simp
@[simp] theorem boundary_defsub (b : Block c) : b.boundary.defsub = b.defsub.set b.selectedType b.selectedSub := by
  rw [boundary_eq]; simp
@[simp] theorem boundary_fs (b : Block c) : b.boundary.fs = b.fs := by rw [boundary_eq]; simp
@[simp] theorem boundary_poly (b : Block c) : b.boundary.poly = b.poly := by rw [boundary_eq]; simp
@[simp] theorem boundary_vin (b : Block c) : b.boundary.vin = b.vin := by rw [boundary_eq]; simp
@[simp] theorem boundary_param (b : Block c) : b.boundary.param = b.param := by rw [boundary_eq]; simp
@[simp] theorem boundary_mods (b : Block c) : b.boundary.mods = b.mods := by rw [boundary_eq]; simp
@[simp] theorem boundary_vout (b : Block c) : b.boundary.vout = b.vout := by rw [boundary_eq]; simp
@[simp] theorem boundary_outch (b : Block c) : b.boundary.outch = b.outch := by rw [boundary_eq]; simp

/-! `GATHER`. -/

/-- A voice that is carried and holds slot `q` (R228). -/
def Feeds (b : Block c) (sd : Side) (v : Channel) (q : Slot) : Prop := b.Carried sd v ∧ b.entry sd v = some q

theorem gatherVoice_other (b : Block c) (sd : Side) (inp : Vector Vec4 8) (v : Channel) (q : Slot)
    (h : ¬ b.Feeds sd v q) : laneGet (b.gatherVoice sd inp v) q = laneGet inp q := by
  unfold gatherVoice
  split
  · next hc =>
    cases he : b.entry sd v with
    | none => rfl
    | some q' => exact laneGet_laneSet_other _ _ fun e => h ⟨hc, by rw [he, e]⟩
  · rfl

theorem gatherVoice_feeds (b : Block c) (sd : Side) (inp : Vector Vec4 8) (v : Channel) (q : Slot)
    (h : b.Feeds sd v q) : laneGet (b.gatherVoice sd inp v) q = c.fmul (b.vin.get sd)[v] c.inScale := by
  unfold gatherVoice
  rw [if_pos h.1, h.2]
  exact laneGet_laneSet_same _ _ _

/-- A side none of whose carried voices holds slot `q` leaves that lane. -/
theorem gatherSide_other (b : Block c) (sd : Side) (inp : Vector Vec4 8) (q : Slot)
    (h : ∀ v, ¬ b.Feeds sd v q) : laneGet (forChannels inp (b.gatherVoice sd)) q = laneGet inp q := by
  unfold forChannels
  generalize ([0, 1, 2, 3, 4, 5, 6, 7, 8, 9, 10, 11, 12, 13, 14, 15] : List Channel) = l
  induction l generalizing inp with
  | nil => rfl
  | cons v l ih => rw [List.foldl_cons, ih, gatherVoice_other b sd inp v q (h v)]

theorem mem_channels (v : Channel) :
    v ∈ ([0, 1, 2, 3, 4, 5, 6, 7, 8, 9, 10, 11, 12, 13, 14, 15] : List Channel) := by decide +revert

/-- A side whose one carried voice on slot `q` is `v` puts that voice's converted input there. -/
theorem gatherSide_feeds (b : Block c) (sd : Side) (inp : Vector Vec4 8) (v : Channel) (q : Slot)
    (h : b.Feeds sd v q) (hone : ∀ v', b.Feeds sd v' q → v' = v) :
    laneGet (forChannels inp (b.gatherVoice sd)) q = c.fmul (b.vin.get sd)[v] c.inScale := by
  unfold forChannels
  have key : ∀ (l : List Channel) (inp : Vector Vec4 8),
      (v ∈ l ∨ laneGet inp q = c.fmul (b.vin.get sd)[v] c.inScale) →
      laneGet (l.foldl (b.gatherVoice sd) inp) q = c.fmul (b.vin.get sd)[v] c.inScale := by
    intro l
    induction l with
    | nil => intro inp hl; exact hl.resolve_left (by simp)
    | cons w l ih =>
      intro inp hl
      refine ih _ ?_
      by_cases hw : b.Feeds sd w q
      · obtain rfl := hone w hw
        exact .inr (gatherVoice_feeds b sd inp w q hw)
      · rcases hl with hl | hl
        · rcases List.mem_cons.mp hl with rfl | hl
          · exact absurd h hw
          · exact .inl hl
        · exact .inr (by rw [gatherVoice_other b sd inp w q hw, hl])
  exact key _ _ (.inl (mem_channels v))

/-! The group loop. -/

/-- What the group loop makes of a group in use and what it puts out (R221, R230). -/
def sampled (b : Block c) (inp : Vector Vec4 8) (g : GroupIx) : c.GS × Vec4 :=
  b.dispatched (Config.interp b.groups[g]) inp[g]

theorem runGroup_sameBesides (inp : Vector Vec4 8) (p : Block c × Vector Vec4 8) (g : GroupIx) :
    p.1.SameBesidesGroups (runGroup inp p g).1 ∧ (runGroup inp p g).1.snap = p.1.snap := by
  unfold runGroup
  split
  · refine ⟨SameBesidesGroups.trans (b' := p.1.cinterp g) rfl (dispatch_sameBesides _ _ _ _), ?_⟩
    rw [dispatch_snap, cinterp_snap]
  · exact ⟨.refl _, rfl⟩

/-- Blocks that differ at most in the filter units and snapshots resolve the same function. -/
theorem dispatched_congr {b b' : Block c} (h : b.SameBesidesGroups b') : b'.dispatched = b.dispatched := by
  unfold SameBesidesGroups at h
  funext gs x
  unfold dispatched resolved
  rw [h]

theorem nSimd_congr {b b' : Block c} (h : b.SameBesidesGroups b') : b'.nSimd = b.nSimd := by
  unfold SameBesidesGroups at h
  rw [h]

/-- The group loop changes the filter units only. -/
theorem runGroups_sameBesides (b : Block c) (inp : Vector Vec4 8) : b.SameBesidesGroups (b.runGroups inp).1 := by
  unfold runGroups
  exact forGroups_keeps (fun p => b.SameBesidesGroups p.1)
    (fun p g h => h.trans (runGroup_sameBesides inp p g).1) (show b.SameBesidesGroups (b, _).1 from .refl b)

@[simp] theorem runGroups_snap (b : Block c) (inp : Vector Vec4 8) : (b.runGroups inp).1.snap = b.snap := by
  unfold runGroups
  exact forGroups_keeps (fun p : Block c × Vector Vec4 8 => p.1.snap = b.snap)
    (fun p g h => (runGroup_sameBesides inp p g).2.trans h) rfl

/-- Every group and every output vector after the group loop. -/
theorem runGroups_parts (b : Block c) (inp : Vector Vec4 8) (g : GroupIx) :
    ((b.runGroups inp).1.groups[g], (b.runGroups inp).2[g]) =
      if g.val < b.nSimd then b.sampled inp g else (b.groups[g], zero4) := by
  have := forGroups_parts (fun (p : Block c × Vector Vec4 8) g => ((p.1.groups[g], p.2[g]) : c.GS × Vec4))
    (fun p => b.SameBesidesGroups p.1)
    (fun g r => if g.val < b.nSimd then b.dispatched (Config.interp r.1) inp[g] else r)
    (f := runGroup inp) (fun p g h => h.trans (runGroup_sameBesides inp p g).1)
    (fun p g h => by
      unfold runGroup
      rw [nSimd_congr h]
      split
      · have hd : (p.1.cinterp g).dispatched = b.dispatched := dispatched_congr (h.trans rfl)
        rw [dispatch_group_same, dispatch_out_same, hd]
        simp
      · rfl)
    (fun p g g' _ hne => by
      unfold runGroup
      split
      · rw [dispatch_group_other _ _ _ hne, dispatch_out_other _ _ _ hne, cinterp, setGroup_other _ _ hne]
      · rfl)
    (a := (b, Vector.replicate 8 zero4)) (.refl b) g
  unfold runGroups
  simp only at this
  rw [this]
  simp [sampled]

theorem runGroups_group (b : Block c) (inp : Vector Vec4 8) (g : GroupIx) :
    (b.runGroups inp).1.groups[g] = if g.val < b.nSimd then (b.sampled inp g).1 else b.groups[g] := by
  have := congrArg Prod.fst (b.runGroups_parts inp g)
  split at this <;> simp_all

theorem runGroups_out (b : Block c) (inp : Vector Vec4 8) (g : GroupIx) :
    (b.runGroups inp).2[g] = if g.val < b.nSimd then (b.sampled inp g).2 else zero4 := by
  have := congrArg Prod.snd (b.runGroups_parts inp g)
  split at this <;> simp_all

/-! The tick. -/

/-- The per-sample path in closed form: the filter units, the outputs and the position (R221). -/
theorem sample_eq (b : Block c) :
    b.sample = { b with
      groups := (b.runGroups b.gather).1.groups
      vout := .build fun sd => Vector.ofFn fun v => b.voiceOut (b.runGroups b.gather).2 sd v
      outch := .build fun sd => (max (b.lastPoly.get sd) 1).toNat
      pos := b.pos + 1 } := by
  have h := b.runGroups_sameBesides b.gather
  have hs := b.runGroups_snap b.gather
  unfold sample
  generalize b.runGroups b.gather = r at h hs ⊢
  obtain ⟨b', out⟩ := r
  have hb : b' = { b with groups := b'.groups } := by
    unfold SameBesidesGroups at h
    exact h.trans (by rw [show b'.snap = b.snap from hs])
  generalize b'.groups = gs at hb ⊢
  subst hb
  simp only [scatter]
  rfl

/-- The per-sample path reads the filter units, the group count, the resolved function, the inputs, the table and the
latched polyphony, and nothing else (R221). -/
theorem sample_congr {b b' : Block c} (hg : b'.groups = b.groups) (hn : b'.nSimd = b.nSimd) (hf : b'.fn = b.fn)
    (hv : b'.vin = b.vin) (ha : b'.alloc = b.alloc) (hl : b'.lastPoly = b.lastPoly) :
    b'.sample = { b' with
      groups := b.sample.groups
      vout := b.sample.vout
      outch := b.sample.outch
      pos := b'.pos + 1 } := by
  have hi : b'.gather = b.gather := by
    unfold gather gatherVoice entry
    simp only [Carried, hv, ha, hl]
  have hd : ∀ inp g, b'.sampled inp g = b.sampled inp g := by
    intro inp g; unfold sampled dispatched resolved; rw [hf, hg]
  have h1 : (b'.runGroups b.gather).1.groups = (b.runGroups b.gather).1.groups :=
    Vector.ext fun i h => by
      have hb := b.runGroups_group b.gather ⟨i, h⟩
      have hb' := b'.runGroups_group b.gather ⟨i, h⟩
      rw [hn, hd, hg] at hb'
      exact hb'.trans hb.symm
  have h2 : (b'.runGroups b.gather).2 = (b.runGroups b.gather).2 :=
    Vector.ext fun i h => by
      have hb := b.runGroups_out b.gather ⟨i, h⟩
      have hb' := b'.runGroups_out b.gather ⟨i, h⟩
      rw [hn, hd] at hb'
      exact hb'.trans hb.symm
  rw [sample_eq b', sample_eq b, hi, h1, h2]
  simp only [voiceOut, entry, Carried, ha, hl]

theorem tick_eq (b : Block c) : b.tick = if b.atBoundary then b.boundary.sample else b.sample := by
  unfold tick atBlockStart
  split <;> rfl

end Sys2Proof.Machine.Block
end

