-- ==== Sys2Proof/Laws/Step.lean ====
section
/-! SUPPORT. What a step can do (R250). -/

namespace Sys2Proof.Machine

/-- A step that answers a next state waits, or takes one accepted word and runs its command. -/
theorem step_next_cases {s t : State} (h : step s = .next t) :
    (s.cmds = [] ∧ t = s) ∨
    ∃ w rest i, s.cmds = w :: rest ∧ decode w = .ok i ∧ exec i { s with cmds := rest } = .next t := by
  unfold step at h
  rcases fetch_cases s with ⟨hc, hf⟩ | ⟨w, rest, hc, hf⟩
  · rw [hf] at h
    exact .inl ⟨hc, by simpa using h.symm⟩
  · rw [hf] at h
    cases hd : decode w with
    | error r => simp [hd] at h
    | ok i => exact .inr ⟨w, rest, i, hc, hd, by simpa [hd] using h⟩

end Sys2Proof.Machine
end

