-- ==== Sys2Proof/Machine/Work.lean ====
section
/-! DEFINITION. The work of one tick (R240, R151, R339): the tick run with a log of what each of its loops did, and the
bounds of R240. `Laws/Work.lean` proves that the logged tick computes the tick and that its log is within the bounds.
The machine does not use this file. -/

namespace Sys2Proof.Machine

/-- The activities that R240 counts. -/
inductive Activity where
  /-- One lane vector of `IN` cleared by `GATHER`. -/
  | clear
  /-- One carried voice's input written to its lane. -/
  | gather
  /-- One `CINTERP`. -/
  | interpolate
  /-- One call of the resolved filter function. -/
  | filterCall
  /-- One output voltage written by `SCATTER`. -/
  | output
  /-- One `SELCHK`. -/
  | select
  /-- One `FRESET`. -/
  | fullReset
  /-- One group zeroed by `FRESET`. -/
  | groupReset
  /-- One `VALLOC`. -/
  | allocate
  /-- One entry of the Allocation Table written by `VALLOC` (R151). -/
  | tableEntry
  /-- One group scheduled by `CSCHED`. -/
  | schedule
  /-- One lane update of `CSCHED`. -/
  | laneUpdate
deriving DecidableEq, Repr

/-- The bound of R240 on a tick that is no boundary tick. -/
def Activity.perSample : Activity → Nat
  | .clear => 8
  | .gather => 32
  | .interpolate => 8
  | .filterCall => 8
  | .output => 32
  | .select | .fullReset | .groupReset | .allocate | .tableEntry | .schedule | .laneUpdate => 0

/-- What a boundary tick may add (R240): one `SELCHK` with at most one `FRESET` over 8 groups, at most one `VALLOC` with 32
entries and one `FRESET`, and `CSCHED` over 8 groups of 4 lanes. -/
def Activity.perBoundary : Activity → Nat
  | .clear | .gather | .interpolate | .filterCall | .output => 0
  | .select => 1
  | .fullReset => 2
  | .groupReset => 2 * 8
  | .allocate => 1
  | .tableEntry => 32
  | .schedule => 8
  | .laneUpdate => 8 * 4

/-- What R240 says without "at most": these are done as often as the bound says, whatever the data. -/
def Activity.isFixed : Activity → Bool
  | .clear | .output | .select | .schedule | .laneUpdate => true
  | .gather | .interpolate | .filterCall | .fullReset | .groupReset | .allocate | .tableEntry => false

/-- A result with the log of the activities that led to it. -/
structure Logged (α : Type) where
  value : α
  log : List Activity

/-- A logged computation followed by another. -/
def Logged.andThen {α β : Type} (p : Logged α) (f : α → Logged β) : Logged β :=
  ⟨(f p.value).value, p.log ++ (f p.value).log⟩

/-- The group loop, logged. -/
def groupsLogged {α : Type} (a : α) (f : α → GroupIx → Logged α) : Logged α :=
  forGroups ⟨a, []⟩ fun p g => p.andThen fun a => f a g

/-- The lane loop, logged. -/
def lanesLogged {α : Type} (a : α) (f : α → LaneIx → Logged α) : Logged α :=
  forLanes ⟨a, []⟩ fun p l => p.andThen fun a => f a l

/-- The channel loop, logged. -/
def channelsLogged {α : Type} (a : α) (f : α → Channel → Logged α) : Logged α :=
  forChannels ⟨a, []⟩ fun p v => p.andThen fun a => f a v

namespace Block

variable {c : Config}

/-- What a full reset of `b` does: one activity for each group it maps over (R161). -/
def fresetLog (b : Block c) : List Activity := .fullReset :: b.freset.groups.toList.map fun _ => .groupReset

/-- `SELCHK`, logged. -/
def selchkLogged (b : Block c) : Logged (Block c) :=
  ⟨b.selchk, .select :: if b.PairChanged then b.fresetLog else []⟩

/-- The polyphony step, logged: one activity for each entry of the table that `VALLOC` leaves. -/
def checkPolyLogged (b : Block c) : Logged (Block c) :=
  let entries := b.checkPoly.alloc.left.toList ++ b.checkPoly.alloc.right.toList
  ⟨b.checkPoly, if b.PolyChanged then .allocate :: (entries.map fun _ => .tableEntry) ++ b.fresetLog else []⟩

/-- The scheduler for one group, logged. -/
def scheduleGroupLogged (b : Block c) (g : GroupIx) : Logged (Block c) :=
  let b₁ := b.snapshot g
  let ctx := c.coefTarget (b₁.coefInputs g)
  (lanesLogged b₁.groups[g] fun gs l => ⟨Config.laneUpdate ctx gs l, [.laneUpdate]⟩).andThen fun gs =>
    ⟨(b₁.setGroup g gs).restore g, [.schedule]⟩

/-- `BOUNDARY`, logged. -/
def boundaryLogged (b : Block c) : Logged (Block c) :=
  b.selchkLogged.andThen fun b₁ => b₁.checkPolyLogged.andThen fun b₂ =>
    (groupsLogged b₂ scheduleGroupLogged).andThen fun b₃ => ⟨{ b₃ with pos := 0 }, []⟩

/-- One voice of `GATHER`, logged. -/
def gatherVoiceLogged (b : Block c) (sd : Side) (inp : Vector Vec4 8) (v : Channel) : Logged (Vector Vec4 8) :=
  ⟨b.gatherVoice sd inp v, if b.Carried sd v ∧ (b.entry sd v).isSome then [.gather] else []⟩

/-- `GATHER`, logged. -/
def gatherLogged (b : Block c) : Logged (Vector Vec4 8) :=
  let silence := Vector.replicate 8 zero4
  Logged.andThen ⟨silence, silence.toList.map fun _ => .clear⟩ fun inp =>
    (channelsLogged inp (b.gatherVoiceLogged .left)).andThen fun inp' =>
      channelsLogged inp' (b.gatherVoiceLogged .right)

/-- The body of the group loop, logged. -/
def runGroupLogged (inp : Vector Vec4 8) (p : Block c × Vector Vec4 8) (g : GroupIx) :
    Logged (Block c × Vector Vec4 8) :=
  ⟨runGroup inp p g,
    if g.val < p.1.nSimd then .interpolate :: if (p.1.cinterp g).bypass then [] else [.filterCall] else []⟩

/-- The per-sample path, logged: one activity for each output voltage that `SCATTER` leaves. -/
def sampleLogged (b : Block c) : Logged (Block c) :=
  b.gatherLogged.andThen fun inp =>
    (groupsLogged (b, Vector.replicate 8 zero4) (runGroupLogged inp)).andThen fun r =>
      let outputs := (r.1.scatter r.2).vout.left.toList ++ (r.1.scatter r.2).vout.right.toList
      ⟨{ r.1.scatter r.2 with pos := r.1.pos + 1 }, outputs.map fun _ => .output⟩

/-- One tick, logged (R221, R240). -/
def tickLogged (b : Block c) : Logged (Block c) :=
  (if b.atBoundary then b.boundaryLogged else ⟨b, []⟩).andThen sampleLogged

end Block

end Sys2Proof.Machine
end

