-- ==== Sys2Proof/Laws/Work.lean ====
section
/-! SUPPORT. The logged tick computes the tick, and its log is within the bounds of R240. -/

namespace Sys2Proof.Machine

@[simp] theorem andThen_value {α β : Type} (p : Logged α) (f : α → Logged β) :
    (p.andThen f).value = (f p.value).value := rfl
@[simp] theorem andThen_log {α β : Type} (p : Logged α) (f : α → Logged β) :
    (p.andThen f).log = p.log ++ (f p.value).log := rfl

/-! The loops: what they compute, and how often they do an activity. -/

/-- A logged fold computes the fold of the values. -/
theorem foldl_value {α ι : Type} (f : α → ι → Logged α) (l : List ι) (p : Logged α) :
    (l.foldl (fun p i => p.andThen fun a => f a i) p).value = l.foldl (fun a i => (f a i).value) p.value := by
  induction l generalizing p with
  | nil => rfl
  | cons i l ih => exact ih _

/-- A logged fold whose rounds do an activity between `lo` and `hi` times. -/
theorem foldl_count {α ι : Type} (x : Activity) {f : α → ι → Logged α} {lo hi : Nat}
    (h : ∀ a i, lo ≤ (f a i).log.count x ∧ (f a i).log.count x ≤ hi) (l : List ι) (p : Logged α) :
    p.log.count x + l.length * lo ≤ (l.foldl (fun p i => p.andThen fun a => f a i) p).log.count x ∧
      (l.foldl (fun p i => p.andThen fun a => f a i) p).log.count x ≤ p.log.count x + l.length * hi := by
  induction l generalizing p with
  | nil => simp
  | cons i l ih =>
    have h₁ := h p.value i
    have h₂ := ih (p.andThen fun a => f a i)
    simp only [andThen_log, List.count_append] at h₂
    simp only [List.foldl_cons, List.length_cons, Nat.succ_mul]
    omega

theorem groupsLogged_value {α : Type} (a : α) (f : α → GroupIx → Logged α) :
    (groupsLogged a f).value = forGroups a fun a g => (f a g).value := foldl_value f _ _
theorem lanesLogged_value {α : Type} (a : α) (f : α → LaneIx → Logged α) :
    (lanesLogged a f).value = forLanes a fun a l => (f a l).value := foldl_value f _ _
theorem channelsLogged_value {α : Type} (a : α) (f : α → Channel → Logged α) :
    (channelsLogged a f).value = forChannels a fun a v => (f a v).value := foldl_value f _ _

/-- Eight groups (R18). -/
theorem groupsLogged_count {α : Type} (x : Activity) {f : α → GroupIx → Logged α} {lo hi : Nat}
    (h : ∀ a g, lo ≤ (f a g).log.count x ∧ (f a g).log.count x ≤ hi) (a : α) :
    8 * lo ≤ (groupsLogged a f).log.count x ∧ (groupsLogged a f).log.count x ≤ 8 * hi := by
  simpa [groupsLogged, forGroups] using foldl_count x h [0, 1, 2, 3, 4, 5, 6, 7] ⟨a, []⟩

/-- Four lanes (R18). -/
theorem lanesLogged_count {α : Type} (x : Activity) {f : α → LaneIx → Logged α} {lo hi : Nat}
    (h : ∀ a l, lo ≤ (f a l).log.count x ∧ (f a l).log.count x ≤ hi) (a : α) :
    4 * lo ≤ (lanesLogged a f).log.count x ∧ (lanesLogged a f).log.count x ≤ 4 * hi := by
  simpa [lanesLogged, forLanes] using foldl_count x h [0, 1, 2, 3] ⟨a, []⟩

/-- Sixteen channels (R18). -/
theorem channelsLogged_count {α : Type} (x : Activity) {f : α → Channel → Logged α} {lo hi : Nat}
    (h : ∀ a v, lo ≤ (f a v).log.count x ∧ (f a v).log.count x ≤ hi) (a : α) :
    16 * lo ≤ (channelsLogged a f).log.count x ∧ (channelsLogged a f).log.count x ≤ 16 * hi := by
  simpa [channelsLogged, forChannels] using
    foldl_count x h [0, 1, 2, 3, 4, 5, 6, 7, 8, 9, 10, 11, 12, 13, 14, 15] ⟨a, []⟩

namespace Block

variable {c : Config}

/-! The logged procedures compute the procedures. -/

@[simp] theorem selchkLogged_value (b : Block c) : b.selchkLogged.value = b.selchk := rfl
@[simp] theorem checkPolyLogged_value (b : Block c) : b.checkPolyLogged.value = b.checkPoly := rfl
@[simp] theorem runGroupLogged_value (inp : Vector Vec4 8) (p : Block c × Vector Vec4 8) (g : GroupIx) :
    (runGroupLogged inp p g).value = runGroup inp p g := rfl

theorem scheduleGroupLogged_value (b : Block c) (g : GroupIx) : (b.scheduleGroupLogged g).value = b.scheduleGroup g := by
  unfold scheduleGroupLogged
  simp only [andThen_value, lanesLogged_value]
  rfl

theorem boundaryLogged_value (b : Block c) : b.boundaryLogged.value = b.boundary := by
  have h : (fun (b : Block c) g => (b.scheduleGroupLogged g).value) = scheduleGroup :=
    funext₂ scheduleGroupLogged_value
  simp only [boundaryLogged, andThen_value, selchkLogged_value, checkPolyLogged_value, groupsLogged_value, h]
  rw [boundary, csched]

theorem gatherLogged_value (b : Block c) : b.gatherLogged.value = b.gather := by
  unfold gatherLogged
  simp only [andThen_value, channelsLogged_value]
  rfl

theorem sampleLogged_value (b : Block c) : b.sampleLogged.value = b.sample := by
  simp only [sampleLogged, andThen_value, groupsLogged_value, gatherLogged_value, runGroupLogged_value]
  rw [sample, runGroups]

/-- The logged tick computes the tick (R221). -/
theorem tickLogged_value (b : Block c) : b.tickLogged.value = b.tick := by
  unfold tickLogged tick atBlockStart
  simp only [andThen_value, sampleLogged_value]
  split
  · rw [boundaryLogged_value]
  · rfl

/-! What they did. -/

/-- A full reset zeroes eight groups (R161). -/
theorem fresetLog_count (b : Block c) (x : Activity) :
    b.fresetLog.count x = if x = .fullReset then 1 else if x = .groupReset then 8 else 0 := by
  unfold fresetLog
  cases x <;> simp [List.map_const']

/-- `SELCHK` runs once, with at most one full reset (R209). -/
theorem selchkLogged_count (b : Block c) (x : Activity) :
    (if x = .select then 1 else 0) ≤ b.selchkLogged.log.count x ∧
      b.selchkLogged.log.count x ≤
        if x = .select then 1 else if x = .fullReset then 1 else if x = .groupReset then 8 else 0 := by
  unfold selchkLogged
  by_cases h : b.PairChanged <;> cases x <;> simp [h, fresetLog_count]

/-- The polyphony step runs `VALLOC` at most once, which writes 32 entries and runs one full reset (R147, R151). -/
theorem checkPolyLogged_count (b : Block c) (x : Activity) :
    b.checkPolyLogged.log.count x ≤
      if x = .allocate then 1 else if x = .tableEntry then 32 else if x = .fullReset then 1
      else if x = .groupReset then 8 else 0 := by
  unfold checkPolyLogged
  by_cases h : b.PolyChanged <;> cases x <;> simp [h, fresetLog_count, List.map_const']

/-- The scheduler updates four lanes of a group (R185). -/
theorem scheduleGroupLogged_count (b : Block c) (g : GroupIx) (x : Activity) :
    (b.scheduleGroupLogged g).log.count x = if x = .schedule then 1 else if x = .laneUpdate then 4 else 0 := by
  have h := lanesLogged_count x (lo := if x = .laneUpdate then 1 else 0) (hi := if x = .laneUpdate then 1 else 0)
    (f := fun gs l => ⟨Config.laneUpdate (c.coefTarget ((b.snapshot g).coefInputs g)) gs l, [.laneUpdate]⟩)
    (fun _ _ => by cases x <;> simp) (b.snapshot g).groups[g]
  unfold scheduleGroupLogged
  simp only [andThen_log, List.count_append]
  cases x <;> simp_all; omega

/-- The bounds of R240 on the boundary part. -/
theorem boundaryLogged_count (b : Block c) (x : Activity) :
    b.boundaryLogged.log.count x ≤ x.perBoundary ∧
      (x.isFixed → b.boundaryLogged.log.count x = x.perBoundary) := by
  have h₁ := b.selchkLogged_count x
  have h₂ := b.selchkLogged.value.checkPolyLogged_count x
  have h₃ := groupsLogged_count x (f := scheduleGroupLogged) (fun b g => ⟨(scheduleGroupLogged_count b g x).ge,
    (scheduleGroupLogged_count b g x).le⟩) b.selchkLogged.value.checkPolyLogged.value
  unfold boundaryLogged
  simp only [andThen_log, List.count_append]
  generalize b.selchkLogged.log.count x = n₁ at *
  generalize b.selchkLogged.value.checkPolyLogged.log.count x = n₂ at *
  generalize (groupsLogged b.selchkLogged.value.checkPolyLogged.value scheduleGroupLogged).log.count x = n₃ at *
  cases x <;> simp [Activity.perBoundary, Activity.isFixed] at h₁ h₂ h₃ ⊢ <;> omega

/-- `GATHER` clears eight vectors and writes at most 32 lanes (R228). -/
theorem gatherLogged_count (b : Block c) (x : Activity) :
    (if x = .clear then 8 else 0) ≤ b.gatherLogged.log.count x ∧
      b.gatherLogged.log.count x ≤ if x = .clear then 8 else if x = .gather then 32 else 0 := by
  have h : ∀ sd inp v, 0 ≤ (b.gatherVoiceLogged sd inp v).log.count x ∧
      (b.gatherVoiceLogged sd inp v).log.count x ≤ if x = .gather then 1 else 0 := by
    intro sd inp v
    unfold gatherVoiceLogged
    split <;> cases x <;> simp
  have h₁ := channelsLogged_count x (h .left) (Vector.replicate 8 zero4)
  have h₂ := channelsLogged_count x (h .right)
    (channelsLogged (Vector.replicate 8 zero4) (b.gatherVoiceLogged .left)).value
  unfold gatherLogged
  simp only [andThen_log, List.count_append]
  cases x <;> simp_all; omega

/-- A group is interpolated at most once and filtered at most once (R230). -/
theorem runGroupLogged_count (inp : Vector Vec4 8) (p : Block c × Vector Vec4 8) (g : GroupIx) (x : Activity) :
    (runGroupLogged inp p g).log.count x ≤ if x = .interpolate then 1 else if x = .filterCall then 1 else 0 := by
  unfold runGroupLogged
  simp only
  split
  · split <;> cases x <;> simp
  · simp

/-- The bounds of R240 on the per-sample path. -/
theorem sampleLogged_count (b : Block c) (x : Activity) :
    b.sampleLogged.log.count x ≤ x.perSample ∧ (x.isFixed → b.sampleLogged.log.count x = x.perSample) := by
  have h₁ := b.gatherLogged_count x
  have h₂ := groupsLogged_count x (f := runGroupLogged b.gatherLogged.value)
    (fun p g => ⟨Nat.zero_le _, runGroupLogged_count _ p g x⟩) (b, Vector.replicate 8 zero4)
  unfold sampleLogged
  simp only [andThen_log, List.count_append]
  cases x <;> simp_all [Activity.perSample, Activity.isFixed, List.map_const']; omega

/-- R240: bounded work per tick. What a tick does, it does at most as often as the rule says, and what the rule says without
"at most" it does exactly as often, whatever the data. -/
theorem tickLogged_count (b : Block c) (x : Activity) :
    b.tickLogged.log.count x ≤ x.perSample + (if b.atBoundary then x.perBoundary else 0) ∧
      (x.isFixed → b.tickLogged.log.count x = x.perSample + if b.atBoundary then x.perBoundary else 0) := by
  unfold tickLogged
  simp only [andThen_log, List.count_append]
  split
  · have h₁ := b.boundaryLogged_count x
    have h₂ := b.boundaryLogged.value.sampleLogged_count x
    exact ⟨by omega, fun h => by rw [h₁.2 h, h₂.2 h]; omega⟩
  · have h₂ := b.sampleLogged_count x
    exact ⟨by simpa using h₂.1, fun h => by simpa using h₂.2 h⟩

end Block

end Sys2Proof.Machine
end

