-- ==== Sys2Proof/Machine/Assembler.lean ====
section
/-! DEFINITION. The text form of commands (30_encoding.md part 3, R131 to R134): from lines of text to commands and words,
and from a command to a line. Blanks around words and commas are free (log 20). The machine runs words only. -/

namespace Sys2Proof.Assembler

open Sys2Proof

/-- A text, as the list of its characters. -/
abbrev Text := List Char

/-- A separator between words: a space, a tab or a carriage return. -/
def isBlank (ch : Char) : Bool := ch == ' ' || ch == '\t' || ch == '\r'

/-- A text without the blanks at both ends. -/
def trim (t : Text) : Text := ((t.dropWhile isBlank).reverse.dropWhile isBlank).reverse

/-- The pieces of a text between separator characters, at least one. -/
def splitAt (sep : Char) : Text → List Text
  | [] => [[]]
  | ch :: rest =>
    match splitAt sep rest with
    | [] => [[ch]]
    | piece :: pieces => if ch == sep then [] :: piece :: pieces else (ch :: piece) :: pieces

/-- A line without its comment, which a semicolon starts (R131). -/
def uncommented (t : Text) : Text := t.takeWhile fun ch => ch != ';'

/-- The value of a decimal digit. -/
def digit? (ch : Char) : Option Nat :=
  if '0'.toNat ≤ ch.toNat ∧ ch.toNat ≤ '9'.toNat then some (ch.toNat - '0'.toNat) else none

/-- The value of a hex digit, in either case. -/
def hexDigit? (ch : Char) : Option Nat :=
  match digit? ch with
  | some d => some d
  | none =>
    if 'A'.toNat ≤ ch.toNat ∧ ch.toNat ≤ 'F'.toNat then some (ch.toNat - 'A'.toNat + 10)
    else if 'a'.toNat ≤ ch.toNat ∧ ch.toNat ≤ 'f'.toNat then some (ch.toNat - 'a'.toNat + 10)
    else none

/-- The digits `t` of base `base`, after the value `acc`. -/
def digits? (value : Char → Option Nat) (base : Nat) (acc : Nat) : Text → Option Nat
  | [] => some acc
  | ch :: rest =>
    match value ch with
    | some d => digits? value base (acc * base + d) rest
    | none => none

/-- A decimal number (R132). -/
def nat? (t : Text) : Option Nat := if t.isEmpty then none else digits? digit? 10 0 t

/-- A decimal integer with an optional leading minus (R132). -/
def int? : Text → Option Int
  | '-' :: rest => (nat? rest).map fun n => -(n : Int)
  | t => (nat? t).map fun n => (n : Int)

/-- The binary32 value of sign `s` nearest to `n / 10 ^ k`, ties to even (R132). The quotient is taken in units of `2 ^ -200`,
well below the least subnormal, and a last bit says whether anything was left over. -/
def decimalValue (s : Bool) (n k : Nat) : F :=
  let scaled := n * 2 ^ 200
  let sticky := if scaled % 10 ^ k = 0 then 0 else 1
  Float32.round s (2 * (scaled / 10 ^ k) + sticky) (-201)

/-- An unsigned decimal literal with an optional fraction (R132), as a value of sign `s`. -/
def decimal? (s : Bool) (t : Text) : Option F :=
  match splitAt '.' t with
  | [whole] => (nat? whole).map fun n => decimalValue s n 0
  | [whole, frac] =>
    match nat? whole, nat? frac with
    | some _, some _ => (nat? (whole ++ frac)).map fun n => decimalValue s n frac.length
    | _, _ => none
  | _ => none

/-- A floating-point operand (R132): `0x` with eight hex digits, or a decimal literal with an optional leading minus. -/
def float? (t : Text) : Option F :=
  match t with
  | '0' :: 'x' :: hex => if hex.length = 8 then (digits? hexDigit? 16 0 hex).map (BitVec.ofNat 32) else none
  | '-' :: rest => decimal? true rest
  | _ => decimal? false t

/-- An integer operand as the 32-bit pattern of a slot (R113, R132); none outside the signed 32-bit range. -/
def int32? (t : Text) : Option (BitVec 32) :=
  match int? t with
  | some n => if -2 ^ 31 ≤ n ∧ n < 2 ^ 31 then some (BitVec.ofInt 32 n) else none
  | none => none

/-- A side, `L` or `R` (R132). -/
def side? : Text → Option Side
  | ['L'] => some .left
  | ['R'] => some .right
  | _ => none

/-- A number below `n`. -/
def fin? (n : Nat) (t : Text) : Option (Fin n) :=
  match nat? t with
  | some k => if h : k < n then some ⟨k, h⟩ else none
  | none => none

/-- A filter type number: it fits the field `A`. Whether it is below `N_TYPES` is the decoder's check. -/
def type? (t : Text) : Option (BitVec 8) := (fin? 256 t).map fun k => BitVec.ofNat 8 k.val

/-- The name of a slot (R132). -/
def slotName : ParamSlot → Text
  | .freq => ['F', 'R', 'E', 'Q']
  | .res => ['R', 'E', 'S']
  | .inGain => ['I', 'N', 'G', 'A', 'I', 'N']
  | .mix => ['M', 'I', 'X']
  | .outGain => ['O', 'U', 'T', 'G', 'A', 'I', 'N']
  | .type => ['T', 'Y', 'P', 'E']
  | .subtype => ['S', 'U', 'B', 'T', 'Y', 'P', 'E']

/-- The slots, in the order of their numbers (R109). -/
def slots : List ParamSlot := [.freq, .res, .inGain, .mix, .outGain, .type, .subtype]

/-- A slot, by its name or its number (R132). -/
def slot? (t : Text) : Option ParamSlot :=
  match slots.find? fun p => slotName p == t with
  | some p => some p
  | none => (fin? 7 t).map fun k => slots[k]

/-- The value operand of WRPARAM: floating-point for slots 0 to 4, an integer for slots 5 and 6 (R113, R132). -/
def slotValue? (p : ParamSlot) (t : Text) : Option (BitVec 32) :=
  match p with
  | .freq => float? t
  | .res => float? t
  | .inGain => float? t
  | .mix => float? t
  | .outGain => float? t
  | .type => int32? t
  | .subtype => int32? t

/-- The mnemonic of a command (R114, R134). -/
def mnemonic : Opcode → Text
  | .reset => ['R', 'E', 'S', 'E', 'T']
  | .tick => ['T', 'I', 'C', 'K']
  | .setrate => ['S', 'E', 'T', 'R', 'A', 'T', 'E']
  | .setpoly => ['S', 'E', 'T', 'P', 'O', 'L', 'Y']
  | .wrin => ['W', 'R', 'I', 'N']
  | .wrparam => ['W', 'R', 'P', 'A', 'R', 'A', 'M']
  | .wrmod => ['W', 'R', 'M', 'O', 'D']
  | .wrdef => ['W', 'R', 'D', 'E', 'F']
  | .rdout => ['R', 'D', 'O', 'U', 'T']
  | .rdch => ['R', 'D', 'C', 'H']
  | .rdtype => ['R', 'D', 'T', 'Y', 'P', 'E']
  | .rdsub => ['R', 'D', 'S', 'U', 'B']
  | .rddef => ['R', 'D', 'D', 'E', 'F']
  | .rdparam => ['R', 'D', 'P', 'A', 'R', 'A', 'M']

/-- The opcodes, in the order of the opcode map (R114). -/
def opcodes : List Opcode :=
  [.reset, .tick, .setrate, .setpoly, .wrin, .wrparam, .wrmod, .wrdef, .rdout, .rdch, .rdtype, .rdsub, .rddef, .rdparam]

/-- A command from its opcode and operand texts (R134). -/
def command? (o : Opcode) (args : List Text) : Option Instr :=
  match o, args with
  | .reset, [] => some .reset
  | .tick, [] => some .tick
  | .setrate, [x] => (float? x).map .setrate
  | .setpoly, [x, y] =>
    match side? x, int? y with
    | some side, some count => some (.setpoly side count)
    | _, _ => none
  | .wrin, [x, y, z] =>
    match side? x, fin? 16 y, float? z with
    | some side, some channel, some voltage => some (.wrin side channel voltage)
    | _, _, _ => none
  | .wrparam, [x, y] =>
    match slot? x with
    | some slot => (slotValue? slot y).map fun data => .wrparam slot data
    | none => none
  | .wrmod, [x, y, z] =>
    match fin? 5 x, fin? 4 y, float? z with
    | some parameter, some source, some value => some (.wrmod parameter source value)
    | _, _, _ => none
  | .wrdef, [x, y] =>
    match type? x, int? y with
    | some type, some subtype => some (.wrdef type subtype)
    | _, _ => none
  | .rdout, [x, y] =>
    match side? x, fin? 16 y with
    | some side, some channel => some (.rdout side channel)
    | _, _ => none
  | .rdch, [x] => (side? x).map .rdch
  | .rdtype, [] => some .rdtype
  | .rdsub, [] => some .rdsub
  | .rddef, [x] => (type? x).map .rddef
  | .rdparam, [x] => (slot? x).map .rdparam
  | _, _ => none

/-- The commands that a pseudo-instruction stands for (R133). -/
def pseudo? (name : Text) (args : List Text) : Option (List Instr) :=
  if name == ['D', 'I', 'S', 'C', 'O', 'N', 'N', 'E', 'C', 'T'] then
    match args with
    | [x] => (side? x).map fun side => [Instr.disconnect side]
    | _ => none
  else if name == ['S', 'E', 'T', 'T', 'Y', 'P', 'E'] then
    match args with
    | [x] => (int32? x).map fun data => [Instr.wrparam .type data]
    | _ => none
  else if name == ['S', 'E', 'T', 'S', 'U', 'B'] then
    match args with
    | [x] => (int32? x).map fun data => [Instr.wrparam .subtype data]
    | _ => none
  else if name == ['R', 'U', 'N'] then
    match args with
    | [x] => (nat? x).map Instr.runTicks
    | _ => none
  else none

/-- The commands of one line (R131): none for a blank line, more than one for `RUN k`, an error for any other text. -/
def line? (t : Text) : Option (List Instr) :=
  let body := trim (uncommented t)
  if body.isEmpty then some []
  else
    let name := body.takeWhile fun ch => !isBlank ch
    let tail := trim (body.dropWhile fun ch => !isBlank ch)
    let args := if tail.isEmpty then [] else (splitAt ',' tail).map trim
    match opcodes.find? fun o => mnemonic o == name with
    | some o => (command? o args).map fun i => [i]
    | none => pseudo? name args

/-- The commands of a listing, one command per line (R131). -/
def lines? : List Text → Option (List Instr)
  | [] => some []
  | t :: rest =>
    match line? t, lines? rest with
    | some is, some js => some (is ++ js)
    | _, _ => none

/-- The command words of a listing where there are `nTypes` filter types: none if a line is no command or a command has an
operand outside its legal range. -/
def assembleFor (nTypes : Nat) (t : Text) : Option (List Word) :=
  match lines? (splitAt '\n' t) with
  | some is => if is.all fun i => (i.checkFor nTypes).isNone then some (is.map encode) else none
  | none => none

/-- The hex digits of a 32-bit pattern, eight of them. -/
def hexDigits (x : BitVec 32) : Text :=
  [28, 24, 20, 16, 12, 8, 4, 0].map fun shift => Nat.digitChar (x.toNat / 2 ^ shift % 16)

/-- A floating-point operand, written as its bit pattern (R132). -/
def floatText (x : F) : Text := '0' :: 'x' :: hexDigits x

/-- A decimal number (R132). -/
def natText (n : Nat) : Text := Nat.toDigits 10 n

/-- A decimal integer (R132). -/
def intText (n : Int) : Text := if n < 0 then '-' :: natText n.natAbs else natText n.natAbs

/-- A side (R132). -/
def sideText : Side → Text
  | .left => ['L']
  | .right => ['R']

/-- The value operand of WRPARAM (R132). -/
def slotValueText (p : ParamSlot) (data : BitVec 32) : Text :=
  match p with
  | .freq => floatText data
  | .res => floatText data
  | .inGain => floatText data
  | .mix => floatText data
  | .outGain => floatText data
  | .type => intText data.toInt
  | .subtype => intText data.toInt

/-- The operand texts of a command, in the order of R134. -/
def operandTexts : Instr → List Text
  | .reset => []
  | .tick => []
  | .setrate rate => [floatText rate]
  | .setpoly side count => [sideText side, intText count]
  | .wrin side channel voltage => [sideText side, natText channel.val, floatText voltage]
  | .wrparam slot data => [slotName slot, slotValueText slot data]
  | .wrmod parameter source value => [natText parameter.val, natText source.val, floatText value]
  | .wrdef type subtype => [natText type.toNat, intText subtype]
  | .rdout side channel => [sideText side, natText channel.val]
  | .rdch side => [sideText side]
  | .rdtype => []
  | .rdsub => []
  | .rddef type => [natText type.toNat]
  | .rdparam slot => [slotName slot]

/-- Operand texts separated by commas (R131). -/
def joined : List Text → Text
  | [] => []
  | [t] => t
  | t :: rest => t ++ (',' :: ' ' :: joined rest)

/-- The line of a command (R131, R134). -/
def lineText (i : Instr) : Text :=
  match operandTexts i with
  | [] => mnemonic i.opcode
  | args => mnemonic i.opcode ++ (' ' :: joined args)

end Sys2Proof.Assembler
end

