-- ==== Sys2Proof/Machine/Reference.lean ====
section
/-! DEFINITION. The reference instantiation of the open scheduler functions, a linear ramp over one block (R191). It is an
instantiation that a configuration may use, no rule of the hardware; the modelled device does not use it. -/

namespace Sys2Proof

variable {z : Sizes}

/-- `CoefTarget` of the linear ramp: the distance to the target divided by the block size (R191). -/
def linearTarget (base : Choices z) (target : CoefInputs z.nCoef → Vector F z.nCoef) (inputs : CoefInputs z.nCoef) :
    Ctx z.nCoef where
  start := inputs.start
  target := target inputs
  delta := Vector.ofFn fun i =>
    Config.fdiv ⟨z, base⟩ (Config.fadd ⟨z, base⟩ (target inputs)[i] (Float32.neg inputs.start[i]))
      (Float32.ofNat inputs.blockSize)
  aux := []

/-- The choices `base` with `CoefTarget`, `LaneUpdate` and `Interp` of the linear ramp (R191), over target coefficients
`target`. Where a ramp is zero the frame condition of R189 wins over `Interp`'s addition (log 9). -/
def linearRamp (base : Choices z) (target : CoefInputs z.nCoef → Vector F z.nCoef) : Choices z :=
  { base with
    coefTarget := linearTarget base target
    laneCoef := fun ctx i => ctx.start[i]
    laneRamp := fun ctx i => ctx.delta[i]
    laneReg := fun _ reg _ _ _ => reg
    interpStep := fun _ coef ramp => Config.fadd ⟨z, base⟩ coef ramp }

end Sys2Proof
end

