-- ==== Sys2Proof/Tests/TestCfg.lean ====
section
/-! SUPPORT. TESTCFG, the configuration of the spec's test vectors (95_test_vectors.md section 2; D29). -/

namespace Sys2Proof.Tests

open Sys2Proof Sys2Proof.Machine

/-- The sizes of TESTCFG. -/
def sizes : Sizes := ⟨3, 1, 0, 2, 3⟩

/-- The choices of TESTCFG that the linear ramp is built over; its functions are placeholders. -/
def plain : Choices sizes where
  nSub t := if t = 1 ∨ t = 2 then 2 else if t = 3 then 1 else 0
  inScaleRaw := 0x3E800000#32
  outScaleRaw := 0x40800000#32
  scaleTolerance := 0
  fs0Raw := 0x473B8000#32
  sharedCfg := []
  filterTable _ _ := none
  coefTarget inputs := ⟨inputs.start, inputs.start, inputs.start, []⟩
  laneCoef _ _ := zeroF
  laneRamp _ _ := zeroF
  laneReg _ reg _ _ _ := reg
  interpStep _ x _ := x
  nanMul _ _ := zeroF
  nanAdd _ _ := zeroF
  nanDiv _ _ := zeroF

/-- The configuration of arithmetic alone, for the toy filters. -/
def arith : Config := ⟨sizes, plain⟩

/-- The gain filter. -/
def gain (gs : sizes.GS) (x : Vec4) : sizes.GS × Vec4 := (gs, Vector.ofFn fun l => arith.fmul gs.coef[0][l] x[l])

/-- The accumulator. -/
def accumulator (gs : sizes.GS) (x : Vec4) : sizes.GS × Vec4 :=
  let r : Vec4 := Vector.ofFn fun l => arith.fadd gs.reg[0][l] x[l]
  ({ gs with reg := gs.reg.set 0 r }, r)

/-- The delay by `DELAY_LEN` ticks. -/
def delay (gs : sizes.GS) (x : Vec4) : sizes.GS × Vec4 :=
  let y : Vec4 := Vector.ofFn fun l => delayRead gs l gs.wp[l]
  let gs' := forLanes gs fun h l => delayWrite h l h.wp[l] x[l]
  ({ gs' with wp := gs.wp.map fun i => i + 1 }, y)

/-- A filter with its output inverted. -/
def inverted (f : sizes.GS → Vec4 → sizes.GS × Vec4) (gs : sizes.GS) (x : Vec4) : sizes.GS × Vec4 :=
  ((f gs x).1, (f gs x).2.map Float32.neg)

/-- `FilterFn` of TESTCFG. -/
def filters : Nat → Nat → Option (sizes.GS → Vec4 → sizes.GS × Vec4)
  | 1, 0 => some gain
  | 1, 1 => some (inverted gain)
  | 2, 0 => some accumulator
  | 2, 1 => some (inverted accumulator)
  | 3, 0 => some delay
  | _, _ => none

/-- The choices of TESTCFG: the linear ramp toward the resonance slot, with a `LaneUpdate` that scribbles on register
1. -/
def choices : Choices sizes :=
  { linearRamp plain (fun inputs => #v[inputs.param.scalars[1]]) with
    filterTable := filters
    laneReg := fun ctx reg _ _ l => reg.set 1 (reg[1].set l ctx.target[0]) }

/-- TESTCFG. -/
def cfg : Config := ⟨sizes, choices⟩

/-- TESTCFG with other scale constants and another tolerance. -/
def scaled (inScale outScale : F) (tolerance : Nat) : Config :=
  ⟨sizes, { choices with inScaleRaw := inScale, outScaleRaw := outScale, scaleTolerance := tolerance }⟩

end Sys2Proof.Tests
end

