-- ==== Sys2Proof/Tests/Slice0.lean ====
section
/-! SUPPORT. Tests on fixed values, each expected value from the spec (95_test_vectors.md, or the rule named), and for every
obligation with hypotheses a witness that they can be met. -/

namespace Sys2Proof.Tests

open Sys2Proof Sys2Proof.Machine

/-! Decoding: words written out from the encoding (95_test_vectors.md section 4.1). -/

theorem test_decode_control :
    decodeFor 4 0x0100000000000000 = .ok .reset ∧
    decodeFor 4 0x0200000000000000 = .ok .tick ∧
    decodeFor 4 0x03000000473B8000 = .ok (.setrate 0x473B8000) ∧
    decodeFor 4 0x0300000000000001 = .ok (.setrate 1) := by decide

theorem test_decode_setpoly :
    decodeFor 4 0x1000000000000010 = .ok (.setpoly .left 16) ∧
    decodeFor 4 0x10010000FFFFFFFF = .ok (.setpoly .right (-1)) := by decide

theorem test_decode_wrin :
    decodeFor 4 0x11010300BF800000 = .ok (.wrin .right 3 0xBF800000) ∧
    decodeFor 4 0x11010F003F800000 = .ok (.wrin .right 15 0x3F800000) := by decide

theorem test_decode_wrparam :
    decodeFor 4 0x12000000C1400000 = .ok (.wrparam .freq 0xC1400000) ∧
    decodeFor 4 0x120100003F000000 = .ok (.wrparam .res 0x3F000000) ∧
    decodeFor 4 0x120400003E800000 = .ok (.wrparam .outGain 0x3E800000) ∧
    decodeFor 4 0x12050000FFFFFFFB = .ok (.wrparam .type 0xFFFFFFFB) ∧
    decodeFor 4 0x1206000000000001 = .ok (.wrparam .subtype 1) := by decide

theorem test_decode_wrmod :
    decodeFor 4 0x130003003F000000 = .ok (.wrmod 0 3 0x3F000000) ∧
    decodeFor 4 0x13040000C0000000 = .ok (.wrmod 4 0 0xC0000000) := by decide

theorem test_decode_wrdef : decodeFor 4 0x1402000000000001 = .ok (.wrdef 2 1) := by decide

theorem test_decode_read :
    decodeFor 4 0x20010F0000000000 = .ok (.rdout .right 15) ∧
    decodeFor 4 0x2101000000000000 = .ok (.rdch .right) ∧
    decodeFor 4 0x2200000000000000 = .ok .rdtype ∧
    decodeFor 4 0x2300000000000000 = .ok .rdsub ∧
    decodeFor 4 0x2403000000000000 = .ok (.rddef 3) ∧
    decodeFor 4 0x2501000000000000 = .ok (.rdparam .res) ∧
    decodeFor 4 0x2506000000000000 = .ok (.rdparam .subtype) := by decide

/-- The reserved words of 95_test_vectors.md section 4.1, by reason. -/
theorem test_reserved_fields :
    decodeFor 4 0x0000000000000000 = .error .opcode ∧
    decodeFor 4 0x2600000000000000 = .error .opcode ∧
    decodeFor 4 0x0200000100000000 = .error .fieldZ ∧
    decodeFor 4 0x0200000000000001 = .error .fieldData ∧
    decodeFor 4 0x0101000000000000 = .error .fieldA ∧
    decodeFor 4 0x0301000047BB8000 = .error .fieldA ∧
    decodeFor 4 0x1000010000000001 = .error .fieldB ∧
    decodeFor 4 0x2000000000000001 = .error .fieldData := by decide

theorem test_reserved_operands :
    decodeFor 4 0x1002000000000001 = .error .side ∧
    decodeFor 4 0x1100100000000000 = .error .channel ∧
    decodeFor 4 0x1207000000000000 = .error .slot ∧
    decodeFor 4 0x1305000000000000 = .error .parameter ∧
    decodeFor 4 0x1300040000000000 = .error .source ∧
    decodeFor 4 0x1404000000000000 = .error .type ∧
    decodeFor 4 0x2404000000000000 = .error .type := by decide

theorem test_reserved_values :
    decodeFor 4 0x0300000080000000 = .error .rate ∧
    decodeFor 4 0x03000000C73B8000 = .error .rate ∧
    decodeFor 4 0x030000007F800000 = .error .rate ∧
    decodeFor 4 0x030000007FC00000 = .error .rate ∧
    decodeFor 4 0x1000000000000011 = .error .count ∧
    decodeFor 4 0x10000000FFFFFFFE = .error .count ∧
    decodeFor 4 0x14010000FFFFFFFF = .error .subtype := by decide

theorem test_encode :
    encode (.wrin .left 0 0x40000000) = 0x1100000040000000 ∧
    encode (.wrparam .type 2) = 0x1205000000000002 ∧
    encode (.rdch .right) = 0x2101000000000000 := by decide

/-- The ill-formed terms that the types allow: one for each check of WellFormed.lean. -/
theorem test_ill_formed :
    ¬ (Instr.setrate 0).WellFormedFor 4 ∧ ¬ (Instr.setrate 0x7FC00000).WellFormedFor 4 ∧
    ¬ (Instr.setpoly .left 17).WellFormedFor 4 ∧ ¬ (Instr.setpoly .left (-2)).WellFormedFor 4 ∧
    ¬ (Instr.wrdef 4 0).WellFormedFor 4 ∧ ¬ (Instr.wrdef 1 (-1)).WellFormedFor 4 ∧
    ¬ (Instr.wrdef 1 2147483648).WellFormedFor 4 ∧ ¬ (Instr.rddef 4).WellFormedFor 4 := by decide

/-! The assembler (95_test_vectors.md section 4.1; R131 to R134). -/

theorem test_assemble_words :
    Assembler.assembleFor 4 "WRPARAM FREQ, -12.0 ; slot 0\n\nWRMOD 4, 0, -2.0".toList =
      some [0x12000000C1400000, 0x13040000C0000000] := by decide +kernel

theorem test_assemble_pseudo :
    Assembler.assembleFor 4 "DISCONNECT R\nSETTYPE 3\nSETSUB 0\nRUN 3".toList =
      some [0x10010000FFFFFFFF, 0x1205000000000003, 0x1206000000000000, 0x0200000000000000, 0x0200000000000000,
        0x0200000000000000] := by decide +kernel

theorem test_assemble_refuses : Assembler.assembleFor 4 "SETPOLY L, 17".toList = none := by decide +kernel

theorem test_line_text :
    Assembler.line? (Assembler.lineText (.wrdef 2 77)) = some [.wrdef 2 77] ∧
    Assembler.line? (Assembler.lineText (.wrin .right 15 0xBF800000)) = some [.wrin .right 15 0xBF800000] := by
  decide +kernel

/-! binary32 (R16): values by hand from the format. -/

theorem test_float_mul :
    Float32.mul 0 0x40000000 0x3E800000 = 0x3F000000 ∧
    Float32.mul 0 0x7F800000 0x3E800000 = 0x7F800000 ∧
    Float32.mul 0 0x00000001 0x3F000000 = 0x00000000 ∧
    Float32.mul 0 0x00000003 0x3F000000 = 0x00000002 ∧
    Float32.mul 0 0x7F7FFFFF 0x40000000 = 0x7F800000 := by decide +kernel

theorem test_float_add_div :
    Float32.add 0 0x3F800000 0xBF800000 = 0x00000000 ∧
    Float32.add 0 0x4B800000 0x3F800000 = 0x4B800000 ∧
    Float32.div 0 0x3F800000 0x40400000 = 0x3EAAAAAB := by decide +kernel

/-- R10: legal scale constants are taken as they are; an `OUT_SCALE` that is zero, NaN, of the wrong sign, past the
tolerance or another power of two than the exact reciprocal gives way to the value nearest to `1 / IN_SCALE`, and an `IN_SCALE` of zero to 1.0. An `IN_SCALE` of 2^-128 keeps
the greatest finite `OUT_SCALE`. -/
theorem test_scales :
    (cfg.inScale, cfg.outScale) = (0x3E800000, 0x40800000) ∧
    (scaled 0x3E4CCCCD 0x40A00000 0).outScale = 0x40A00000 ∧
    (scaled 0x3E800000 0x40800001 1).outScale = 0x40800001 ∧
    (scaled 0x3E800000 0x40800001 0).outScale = 0x40800000 ∧
    (scaled 0x3E800000 0x40E00000 8388608).outScale = 0x40E00000 ∧
    (scaled 0x3E800000 0x41000000 8388608).outScale = 0x40800000 ∧
    (scaled 0x3E800000 0x00000000 9).outScale = 0x40800000 ∧
    (scaled 0x3E800000 0x7FC00000 9).outScale = 0x40800000 ∧
    (scaled 0xBE800000 0x40800000 9).outScale = 0xC0800000 ∧
    (scaled 0x80000000 0x3F800000 0).inScale = 0x3F800000 ∧
    ((scaled 0x00200000 0x7F7FFFFF 0).inScale, (scaled 0x00200000 0x7F7FFFFF 0).outScale) = (0x00200000, 0x7F7FFFFF) ∧
    ((scaled 0x80000001 0 0).inScale, (scaled 0x80000001 0 0).outScale) = (0x80000001, 0xFF7FFFFF) := by decide +kernel

/-! Single commands and ticks under TESTCFG. -/

/-- The block of TESTCFG after reset. -/
def fresh : Block cfg := Block.reset cfg

/-- The channels of a side that all hold one voltage. -/
def level (x : F) : Vector F 16 := Vector.replicate 16 x

/-- Left two voices, right three, the gain filter with target 1.0, every input 2.0, after the first tick. -/
def playing : Block cfg :=
  ({ fresh with
      poly := ⟨2, 3⟩
      vin := .both (level 0x40000000)
      param := ⟨#v[0, 0x3F800000, 0, 0, 0], 1, 0⟩ } : Block cfg).tick

/-- The same with the filter type that has no function, after the first tick. -/
def bypassed : Block cfg :=
  ({ fresh with
      poly := ⟨2, 3⟩
      vin := .both (level 0x40000000) } : Block cfg).tick

/-- R232, R192: the first sample of the ramp, a quarter of the input; the third left channel is past the count. -/
theorem test_tick_gain :
    (playing.vout.left[1], playing.vout.right[2], playing.vout.left[2]) =
      ((0x3F000000, 0x3F000000, 0) : F × F × F) ∧
    playing.outch = ⟨2, 3⟩ ∧ playing.pos = 1 := by decide +kernel

/-- R240: two left and three right voices in two groups; the first boundary sees a new pair and a new polyphony. -/
theorem test_work :
    [Activity.gather, .interpolate, .filterCall, .output, .schedule].map playing.tickLogged.log.count = [5, 2, 2, 32, 0] ∧
    [Activity.fullReset, .groupReset, .tableEntry, .laneUpdate, .filterCall].map
      ({ fresh with poly := ⟨2, 3⟩ } : Block cfg).tickLogged.log.count = [2, 16, 32, 32, 0] := by decide +kernel

/-- V-BP3's kind: the bypass gives the input back; the tail voice is silent. -/
theorem test_tick_bypass :
    (bypassed.vout.left[1], bypassed.vout.left[2], bypassed.vout.right[2]) =
      ((0x40000000, 0, 0x40000000) : F × F × F) := by decide +kernel

/-- Section 3, rows (5, 4), (-1, 5) and (16, 16). -/
theorem test_valloc :
    ((fresh.valloc 5 4).entry .right 4 = some 9 ∧ (fresh.valloc 5 4).entry .left 5 = none ∧
      (fresh.valloc 5 4).nVoices = 10 ∧ (fresh.valloc 5 4).nSimd = 3) ∧
    ((fresh.valloc (-1) 5).entry .right 4 = some 4 ∧ (fresh.valloc (-1) 5).nSimd = 2) ∧
    ((fresh.valloc 16 16).entry .right 15 = some 31 ∧ (fresh.valloc 16 16).nSimd = 8) := by decide +kernel

/-- Section 3: slot 9 is lane 1 of group 2, slot 31 lane 3 of group 7. -/
theorem test_lane_address :
    (slotGroup 9, slotLane 9) = (2, 1) ∧ (slotGroup 31, slotLane 31) = (7, 3) := by decide

/-- V-CS1: the ramp from zero to one. -/
theorem test_csched :
    (({ fresh with param := ⟨#v[0, 0x3F800000, 0, 0, 0], 1, 0⟩ } : Block cfg).csched).groups[0].ramp[0] =
      Vector.replicate 4 (0x3E800000 : F) := by decide +kernel

/-- R194 (b): lanes that differ take lane 0's trajectory. -/
theorem test_csched_lanes :
    ((fresh.setGroup 0 { fresh.groups[0] with coef := #v[#v[0x3F800000, 5, 6, 7]] }).csched).groups[0].coef[0] =
      Vector.replicate 4 (0x3F800000 : F) := by decide +kernel

/-- The playing block with something in the registers and the delay buffers of group 0. -/
def stirred : Block cfg :=
  playing.setGroup 0 { playing.groups[0] with
    reg := #v[#v[1, 2, 3, 4], #v[5, 6, 7, 8]], db := Vector.replicate 4 (Vector.replicate 3 9) }

/-- R162 (a), R163: a change of polyphony alone zeroes the registers at the boundary and leaves the delay buffers. -/
theorem test_polyphony_change :
    ({ stirred with poly := ⟨2, 4⟩ } : Block cfg).boundary.groups[0].reg[0] = zero4 ∧
    ({ stirred with poly := ⟨2, 4⟩ } : Block cfg).boundary.groups[0].db[3][0] = 9 ∧
    stirred.boundary.groups[0].reg[0] = #v[1, 2, 3, 4] := by decide +kernel

/-- V-FD1: the selectors 9 and 7 clamp to 3 and 0. -/
theorem test_selchk :
    (({ fresh with param := ⟨Vector.replicate 5 zeroF, 9, 7⟩ } : Block cfg).selchk).curType = 3 ∧
    (({ fresh with param := ⟨Vector.replicate 5 zeroF, 9, 7⟩ } : Block cfg).selchk).curSub = 0 := by decide +kernel

/-- V-FS3: a register written between SNAP and RESTORE comes back. -/
theorem test_snapshot_restore :
    let b := fresh.setGroup 2 { fresh.groups[2] with reg := #v[#v[1, 2, 3, 4], #v[5, 6, 7, 8]] }
    let s := b.snapshot 2
    ((s.setGroup 2 { s.groups[2] with reg := Vector.replicate 2 zero4 }).restore 2).groups[2].reg[0] =
      #v[1, 2, 3, 4] := by decide +kernel

/-! Single commands of the modelled device; its open configuration does not matter. -/

/-- The reset state at a sample rate of 48000. -/
def ready : Machine.State :=
  { Machine.State.reset with block := { Machine.State.reset.block with fs := Vector.replicate 8 0x473B8000 } }

/-- V-FD2: the reads right after reset. -/
theorem test_reads_after_reset :
    exec .rdtype ready = .next { ready with resp := some 0xFFFFFFFF } ∧
    exec .rdsub ready = .next { ready with resp := some 0xFFFFFFFF } ∧
    exec (.rdch .left) ready = .next { ready with resp := some 1 } ∧
    exec (.rdout .left 0) ready = .next { ready with resp := some 0 } := ⟨rfl, rfl, rfl, rfl⟩

/-- V-HC1: -12.0 in slot 0 and -1 in slot 6. -/
theorem test_wrparam :
    readSlot (writeSlot ready.block.param .freq 0xC1400000) .freq = 0xC1400000 ∧
    readSlot (writeSlot ready.block.param .subtype 0xFFFFFFFF) .subtype = 0xFFFFFFFF ∧
    (writeSlot ready.block.param .subtype 0xFFFFFFFF).subtype = -1 := by decide

/-- A reserved word, and a word that waits behind the one taken. -/
theorem test_step :
    step (ready.withFetchWord 64 0) = .refused (.reserved .opcode) ∧
    step (ready.withFetchWord 64 0x2200000000000000) = .next { ready with resp := some 0xFFFFFFFF } := ⟨rfl, rfl⟩

/-! Witnesses: the hypotheses of each obligation hold together on concrete values. -/

theorem witness_DecodeOfEncode :
    (Instr.setpoly .left (-1)).WellFormedFor 4 ∧ (Instr.setpoly .right 16).WellFormedFor 4 ∧
    (Instr.wrdef 3 2147483647).WellFormedFor 4 := by decide

theorem witness_EncodeOfDecode : decodeFor 4 0x1403000000000001 = .ok (.wrdef 3 1) := by decide

theorem witness_WordSelectsCommandByMaskAndMatch :
    decodeFor 4 0x2200000000000000 = .ok .rdtype ∧
    (0x2200000000000000#64 &&& Opcode.rdtype.format.mask = Opcode.rdtype.matchWord ∧
      assemble .rdtype (fieldsOf 0x2200000000000000) = .ok .rdtype ∧ Instr.rdtype.WellFormedFor 4) := by decide

theorem witness_OnlyLegalWordsAreAccepted :
    (ready.withFetchWord 64 0x1002000000000001).cmds = 0x1002000000000001#64 :: [] ∧
    ¬ Sys2Proof.LegalFields Config.device.nTypes (fieldsOf 0x1002000000000001#64) ∧
    Sys2Proof.LegalFields 4 (fieldsOf 0x1001000000000001#64) := by
  refine ⟨rfl, ?_, ?_⟩ <;> simp [Sys2Proof.LegalFields, fieldsOf]

theorem witness_StepRunsDecodedCommand :
    (ready.withFetchWord 64 0x0200000000000000).cmds = 0x0200000000000000#64 :: [] ∧
    decode 0x0200000000000000 = .ok .tick := ⟨rfl, rfl⟩

theorem witness_StepWaitsWithoutCommand : ready.cmds = [] := rfl

theorem witness_CommandCompletesExactlyWhenLegal :
    (Instr.setrate 0x00000001).WellFormed ∧ (Instr.setpoly .left 16).WellFormed ∧
    (Instr.setrate 0).checkFor Config.device.nTypes = some .rate ∧
    (Instr.setpoly .left 17).checkFor Config.device.nTypes = some .count := ⟨rfl, rfl, rfl, rfl⟩

theorem witness_OnlyReadCommandsRespond :
    exec .rdtype ready = .next (ready.answered 0xFFFFFFFF) ∧
    exec (.wrin .left 0 0) ready = .next (ready.wrote { ready.block with vin := setChannel ready.block.vin .left 0 0 }) :=
  ⟨rfl, rfl⟩

/-- The state `ready` has the invariant. -/
theorem ready_inv : ready.Inv := by
  refine ⟨.inl ⟨?_, ?_, rfl, rfl, rfl, rfl, rfl, rfl⟩, ?_, ⟨0x473B8000, by decide, rfl⟩, ?_, ?_, ?_⟩
  · intro sd; cases sd <;> rfl
  · intro sd; cases sd <;> rfl
  · intro sd; cases sd <;> exact ⟨le_refl _, by decide⟩
  · intro sd; cases sd <;> rfl
  · exact ⟨⟨by decide, by decide⟩, by decide, by decide⟩
  · intro t h
    have : (ready.block.defsub[t]) = 0 := by simp [ready, Machine.State.reset, Block.reset]
    omega

/-- A block of TESTCFG after its first tick has the invariant. -/
theorem playing_inv : playing.Inv := by
  refine ⟨.inr ⟨?_, by decide +kernel, by decide +kernel, by decide +kernel, by decide +kernel, by decide +kernel,
    by decide +kernel, by decide +kernel⟩, ?_, ⟨0x473B8000, by decide +kernel, by decide +kernel⟩, ?_, by decide +kernel,
    by decide +kernel⟩
  all_goals intro sd; cases sd <;> decide +kernel

theorem bypassed_inv : bypassed.Inv := by
  refine ⟨.inr ⟨?_, by decide +kernel, by decide +kernel, by decide +kernel, by decide +kernel, by decide +kernel,
    by decide +kernel, by decide +kernel⟩, ?_, ⟨0x473B8000, by decide +kernel, by decide +kernel⟩, ?_, by decide +kernel,
    by decide +kernel⟩
  all_goals intro sd; cases sd <;> decide +kernel

theorem witness_StepKeepsInvariant :
    ready.Inv ∧ step ready = .next ready ∧ (ready.withFetchWord 64 0x0200000000000000).Inv ∧
    (∃ t, step (ready.withFetchWord 64 0x0200000000000000) = .next t) ∧
    (∃ t, step (ready.withFetchWord 64 0x1000000000000010) = .next t) :=
  ⟨ready_inv, rfl, ready_inv, ⟨_, rfl⟩, ⟨_, rfl⟩⟩

theorem witness_AllocatorInvariantsHold :
    playing.Inv ∧ playing.entry .left 1 = some 2 ∧ playing.entry .right 2 = some 5 ∧
    ¬ (playing.lastPoly.get .left = -2 ∧ playing.lastPoly.get .right = -2) :=
  ⟨playing_inv, by decide +kernel, by decide +kernel, by decide +kernel⟩

theorem witness_SetrateWritesEveryGroupsRate :
    Float32.isFinitePos 0x00000001 ∧ Float32.isFinitePos 0x7F7FFFFF ∧ Float32.isFinitePos 0 = false ∧
    Float32.isFinitePos 0x80000000 = false ∧ Float32.isFinitePos 0x7F800000 = false ∧
    Float32.isFinitePos 0x80000001 = false := by decide

theorem witness_SetpolyWritesOnePort :
    ((-1 : Int) ≤ -1 ∧ (-1 : Int) ≤ 16) ∧ ((-1 : Int) ≤ 16 ∧ (16 : Int) ≤ 16) ∧
    ¬ ((-1 : Int) ≤ -2 ∧ (-2 : Int) ≤ 16) ∧ ¬ ((-1 : Int) ≤ 17 ∧ (17 : Int) ≤ 16) := by decide

theorem witness_WrparamWritesOneSlot :
    ParamSlot.freq.byte = BitVec.ofNat 8 (0 : Fin 5).val ∧
    ParamSlot.outGain.byte = BitVec.ofNat 8 (4 : Fin 5).val := by decide

theorem witness_WrdefWritesOneEntry :
    (((0 : BitVec 8).toNat < Config.device.nTypes ∧ (0 : Int) ≤ 0 ∧ (0 : Int) ≤ 2147483647) ∧
      ((0 : BitVec 8).toNat < Config.device.nTypes ∧ (0 : Int) ≤ 2147483647 ∧ (2147483647 : Int) ≤ 2147483647)) ∧
    ¬ ((0 : BitVec 8).toNat < Config.device.nTypes ∧ (0 : Int) ≤ -1 ∧ (-1 : Int) ≤ 2147483647) ∧
    ¬ ((0 : BitVec 8).toNat < Config.device.nTypes ∧ (0 : Int) ≤ 2147483648 ∧ (2147483648 : Int) ≤ 2147483647) := by
  simp

theorem witness_RdchAnswersChannelCount : ready.Inv := ready_inv

theorem witness_RdtypeAndRdsubAnswerLatchedPair :
    let low : Machine.State := { ready with block := { ready.block with curType := -2 ^ 31, curSub := -2 ^ 31 } }
    let high : Machine.State := { ready with block := { ready.block with curType := 2147483647, curSub := 2147483647 } }
    ((-2 ^ 31 ≤ low.block.curType ∧ low.block.curType < 2 ^ 31) ∧
      (-2 ^ 31 ≤ low.block.curSub ∧ low.block.curSub < 2 ^ 31)) ∧
    ((-2 ^ 31 ≤ high.block.curType ∧ high.block.curType < 2 ^ 31) ∧
      (-2 ^ 31 ≤ high.block.curSub ∧ high.block.curSub < 2 ^ 31)) := by decide

theorem witness_RdparamAnswersSlotPattern :
    ParamSlot.freq.byte = BitVec.ofNat 8 (0 : Fin 5).val ∧
    ParamSlot.outGain.byte = BitVec.ofNat 8 (4 : Fin 5).val := by decide

theorem witness_RdparamReturnsLastWrittenPattern :
    (∃ t u, exec (.wrparam .res 5) ready = .next t ∧ exec (.rdparam .res) t = .next u) ∧
    (Instr.tick ≠ .reset ∧ (∀ d, Instr.tick ≠ .wrparam .res d) ∧
      ∃ t u v, exec .tick ready = .next t ∧ exec (.rdparam .res) ready = .next u ∧
        exec (.rdparam .res) t = .next v) :=
  ⟨⟨_, _, rfl, rfl⟩, by decide, fun d => by simp, _, _, _, rfl, rfl, rfl⟩

theorem witness_IssuersChangeOnlyTheirState :
    (∃ t, exec (.wrparam .res 5) ready = .next t ∧ (Instr.wrparam .res 5).issuer = .collaborators) ∧
    (∃ t, exec (.setrate 0x473B8000) ready = .next t ∧ (Instr.setrate 0x473B8000).issuer = .controlPath) ∧
    (∃ t, exec (.wrin .left 0 5) ready = .next t ∧ (Instr.wrin .left 0 5).issuer = .realTimeThread ∧
      Instr.wrin .left 0 5 ≠ .tick) :=
  ⟨⟨_, rfl, rfl⟩, ⟨_, rfl, rfl⟩, ⟨_, rfl, rfl, by decide⟩⟩

theorem witness_RestoreUndoesRegisterWrites :
    ((fresh.snapshot 2).setGroup 2 { fresh.groups[2] with reg := Vector.replicate 2 #v[9, 9, 9, 9] }).snap[2] =
      (fresh.snapshot 2).snap[2] ∧ (3 : GroupIx) ≠ 2 := by decide +kernel

theorem witness_SingleSidePacksSequentially : 0 ≤ 16 ∧ 16 ≤ 16 ∧ Side.right ≠ .left := by decide

theorem witness_ConnectedSidesStack : (0 ≤ 16 ∧ 0 ≤ 16) ∧ (16 ≤ 16 ∧ 0 ≤ 16) := by decide

theorem witness_AllocationIsSoundForAllPairs :
    PolyLegal (-1) ∧ PolyLegal 16 ∧ (fresh.valloc 16 (-1)).entry .left 15 = some 15 := by
  decide +kernel

/-- A context whose trajectories start at 1.0 and rise by 0.25. -/
def risingCtx : Ctx cfg.nCoef := ⟨#v[0x3F800000], #v[0x40000000], #v[0x3E800000], []⟩

theorem witness_LaneUpdateWritesItsLaneOnly :
    (1 : LaneIx) ≠ 0 ∧ (3 : LaneIx) ≠ 0 ∧
    (Config.laneUpdate (c := cfg) risingCtx fresh.groups[0] 0).coef[0][0] ≠ fresh.groups[0].coef[0][0] ∧
    (Config.laneUpdate (c := cfg) risingCtx fresh.groups[0] 0).ramp[0][0] ≠ fresh.groups[0].ramp[0][0] := by
  decide +kernel

theorem witness_InterpolationMovesCoefficientsOnly :
    (3 : GroupIx) ≠ 2 ∧ fresh.groups[2].ramp[0][1] = zeroF ∧
    playing.groups[0].coef[0][0] = playing.groups[0].coef[0][3] ∧
    playing.groups[0].ramp[0][0] = playing.groups[0].ramp[0][3] ∧ playing.groups[0].ramp[0][0] ≠ zeroF := by
  decide +kernel

/-- One clause at a time: the type alone, the subtype alone (R202, R210), the polyphony of one side alone (R162 (a)). -/
theorem witness_ChangeAtBoundaryClearsTheStore :
    let retyped : Block cfg := { playing with param := { playing.param with type := 2 } }
    let resubbed : Block cfg := { playing with param := { playing.param with subtype := 7 } }
    let revoiced : Block cfg := { playing with poly := ⟨2, 4⟩ }
    (retyped.selchk.curType ≠ retyped.curType ∧ retyped.selchk.curSub = retyped.curSub ∧
      retyped.poly = retyped.lastPoly) ∧
    (resubbed.selchk.curType = resubbed.curType ∧ resubbed.selchk.curSub ≠ resubbed.curSub ∧
      resubbed.poly = resubbed.lastPoly) ∧
    (revoiced.selchk.curType = revoiced.curType ∧ revoiced.selchk.curSub = revoiced.curSub ∧
      revoiced.poly.get .left = revoiced.lastPoly.get .left ∧
      revoiced.poly.get .right ≠ revoiced.lastPoly.get .right) := by decide +kernel

theorem witness_UnchangedBoundaryKeepsRecursiveState :
    playing.selchk.curType = playing.curType ∧ playing.selchk.curSub = playing.curSub ∧
    (∀ sd, playing.poly.get sd = playing.lastPoly.get sd) := by
  refine ⟨by decide +kernel, by decide +kernel, fun sd => ?_⟩
  cases sd <;> decide +kernel

theorem witness_SelectorLatchesClampedPair : ∃ f, playing.selchk.resolved = some f := ⟨_, rfl⟩

theorem witness_DispatchCopiesOrApplies :
    fresh.resolved = none ∧ ∃ f, ({ fresh with fn := some (1, 0) } : Block cfg).resolved = some f := ⟨rfl, _, rfl⟩

theorem witness_BoundaryCadence : fresh.pos = cfg.blockSize := rfl

theorem witness_MidBlockTickKeepsSteeringState :
    playing.pos < cfg.blockSize ∧ ({ playing with pos := 3 } : Block cfg).pos < cfg.blockSize := by decide +kernel

theorem witness_MidBlockTickIgnoresPortWrites : playing.pos < cfg.blockSize := by decide +kernel

theorem witness_GatherFillsEveryLane :
    playing.Inv ∧ playing.atBlockStart.Carried .right 2 ∧ playing.atBlockStart.entry .right 2 = some 5 ∧
    (∀ (sd : Side) (v : Channel), playing.atBlockStart.Carried sd v → playing.atBlockStart.entry sd v ≠ some 4) := by
  refine ⟨playing_inv, by decide +kernel, by decide +kernel, fun sd => ?_⟩
  cases sd <;> decide +kernel

theorem witness_ScatterWritesEveryOutput :
    playing.Carried .left 1 ∧ playing.entry .left 1 = some 2 ∧ ¬ playing.Carried .left 2 ∧
    playing.entry .left 3 = none := by decide +kernel

theorem witness_OutputsFollowLatchedPolyphony :
    playing.tick.lastPoly.get .left ≤ ((2 : Channel).val : Int) := by decide +kernel

/-- Inside a block with a function and without one, and at a boundary. -/
theorem witness_VoiceOutputIsItsLanesFilterOutput :
    (playing.Inv ∧ playing = (if cfg.blockSize ≤ playing.pos then playing.boundary else playing) ∧
      playing.Carried .right 2 ∧ playing.entry .right 2 = some 5 ∧ playing.bypass = false) ∧
    (bypassed.Inv ∧ bypassed = (if cfg.blockSize ≤ bypassed.pos then bypassed.boundary else bypassed) ∧
      bypassed.Carried .left 0 ∧ bypassed.entry .left 0 = some 0 ∧ bypassed.bypass = true) :=
  ⟨⟨playing_inv, (if_neg (by decide +kernel)).symm, by decide +kernel, by decide +kernel, by decide +kernel⟩,
    bypassed_inv, (if_neg (by decide +kernel)).symm, by decide +kernel, by decide +kernel, by decide +kernel⟩

theorem witness_BypassPassesInputsThrough :
    bypassed.Inv ∧ bypassed.tick.bypass = true ∧ ((2 : Channel).val : Int) < bypassed.tick.lastPoly.get .right :=
  ⟨bypassed_inv, by decide +kernel, by decide +kernel⟩

theorem witness_MultiplyByPowerOfTwoIsExact :
    (Float32.fracField 0x20000000 = 0 ∧ Float32.expField 0x20000000 = 64 ∧ Float32.expField 0x207FFFFF = 64 ∧
      128 ≤ Float32.expField 0x207FFFFF + Float32.expField 0x20000000) ∧
    (Float32.fracField 0x3F800000 = 0 ∧ Float32.expField 0x3F800000 = 127 ∧ Float32.expField 0x7F7FFFFF = 254 ∧
      Float32.expField 0x7F7FFFFF + Float32.expField 0x3F800000 ≤ 381) := by
  decide

/-- A voltage whose products are the least and the greatest normal ones, and a zero. -/
theorem witness_ConversionRoundTripIsWithinTolerance :
    (1 ≤ Float32.expField (cfg.fdiv 0x3F800000 cfg.inScale) ∧ Float32.expField (cfg.fdiv 0x3F800000 cfg.inScale) ≤ 254) ∧
    Float32.expField ((scaled 0x7E800000 0 0).fdiv 0x3F800000 (scaled 0x7E800000 0 0).inScale) = 1 ∧
    Float32.expField ((scaled 0x00200001 0 0).fdiv 0x3F800000 (scaled 0x00200001 0 0).inScale) = 254 ∧
    Float32.isFinite ((scaled 0x00200000 0 0).fdiv 0x3F800000 (scaled 0x00200000 0 0).inScale) = false ∧
    (Float32.isFinite 0x80000000 ∧ Float32.isZero 0x80000000) ∧
    (Float32.isFinite 0x01800001 ∧ Float32.expField (cfg.fmul 0x01800001 cfg.inScale) = 1 ∧
      Float32.expField (cfg.fmul (cfg.fmul 0x01800001 cfg.inScale) cfg.outScale) = 3) ∧
    (Float32.isFinite 0x7F7FFFFF ∧ Float32.expField (cfg.fmul 0x7F7FFFFF cfg.inScale) = 252 ∧
      Float32.expField (cfg.fmul (cfg.fmul 0x7F7FFFFF cfg.inScale) cfg.outScale) = 254) := by
  decide +kernel

/-- The hypotheses of the exact round trip on one voltage. -/
abbrev Exact (c : Config) (m n : Nat) (x : F) : Prop :=
  (Float32.units c.inScale).natAbs = 2 ^ m ∧ (Float32.units c.outScale).natAbs = 2 ^ n ∧
    (Float32.isInf x ∨
      Float32.isFinite x ∧ 2 ^ 149 ∣ (Float32.units x).natAbs * 2 ^ m ∧
        (Float32.units x).natAbs * 2 ^ m / 2 ^ 149 < 2 ^ 149 * 2 ^ 128)

/-- Infinities and zeros; under `IN_SCALE` 0.25 the least voltage whose quarter is not lost and the greatest one; under
`IN_SCALE` 4.0 the least voltage, subnormal, and the greatest that does not overflow. -/
theorem witness_ConversionRoundTripIsExact :
    Exact cfg 147 151 0x7F800000 ∧ Exact cfg 147 151 0xFF800000 ∧
    Exact cfg 147 151 0x00000000 ∧ Exact cfg 147 151 0x80000000 ∧
    Exact cfg 147 151 0x00000004 ∧ Exact cfg 147 151 0x7F7FFFFF ∧
    Exact (scaled 0x40800000 0x3E800000 0) 151 147 0x00000001 ∧
    Exact (scaled 0x40800000 0x3E800000 0) 151 147 0x7E7FFFFF := by
  decide +kernel

end Sys2Proof.Tests
end

/-! PROOFS. Binary32 patterns and their exact magnitudes (R11, R16; log 15). `mag` is the magnitude of a finite value in
units of `2 ^ (-149)`, so that every statement on exact values is one of natural numbers. -/

namespace Sys2Proof.Float32

open Sys2Proof

/-- The exponent of the significand's unit, counted from the least one, -149. -/
def scale (x : F) : Nat := expField x - 1

/-- The magnitude of a finite value in units of `2 ^ (-149)`: `units` without its sign (`natAbs_units`). -/
def mag (x : F) : Nat := mant x * 2 ^ scale x

theorem expField_lt (x : F) : expField x < 256 := Nat.mod_lt _ (by decide)

theorem fracField_lt (x : F) : fracField x < 2 ^ 23 := Nat.mod_lt _ (by decide)

theorem isFinite_iff {x : F} : isFinite x ↔ expField x ≤ 254 := by
  have := expField_lt x
  simp only [isFinite, bne_iff_ne]
  omega

theorem isNaN_of_isFinite {x : F} (h : isFinite x) : isNaN x = false := by
  simp_all [isFinite, isNaN]

theorem isInf_of_isFinite {x : F} (h : isFinite x) : isInf x = false := by
  simp_all [isFinite, isInf]

theorem isNaN_of_isInf {x : F} (h : isInf x) : isNaN x = false := by
  simp_all [isNaN, isInf]

theorem expo_eq (x : F) : expo x = (scale x : Int) - 149 := by
  unfold expo scale
  split <;> omega

theorem mant_lt (x : F) : mant x < 2 ^ 24 := by
  have := fracField_lt x
  unfold mant
  split <;> omega

theorem mant_of_normal {x : F} (h : 1 ≤ expField x) : mant x = 2 ^ 23 + fracField x := if_neg (by omega)

theorem scale_add_one {x : F} (h : 1 ≤ expField x) : scale x + 1 = expField x := by
  unfold scale; omega

theorem scale_le {x : F} (h : isFinite x) : scale x ≤ 253 := by
  have := isFinite_iff.mp h
  unfold scale; omega

/-- A significand with no bit above the fraction has the least exponent. -/
theorem scale_eq_zero_or_mant_ge (x : F) : scale x = 0 ∨ 2 ^ 23 ≤ mant x := by
  unfold scale mant
  split <;> omega

theorem units_eq (x : F) : units x = if sign x then -(mag x : Int) else mag x := by
  have hexp : (expo x - -149).toNat = scale x := by rw [expo_eq]; omega
  simp only [units, signedMant, hexp, mag]

theorem natAbs_units (x : F) : (units x).natAbs = mag x := by
  rw [units_eq]
  split <;> omega

/-- Values of one sign differ by the difference of their magnitudes. -/
theorem natAbs_units_sub {x y : F} (h : sign x = sign y) :
    (units x - units y).natAbs = ((mag x : Int) - mag y).natAbs := by
  rw [units_eq, units_eq, h]
  split <;> omega

theorem ulp_eq (x : F) : ulp x = 2 ^ scale x := by
  have hexp : (expo x + 149).toNat = scale x := by rw [expo_eq]; omega
  rw [ulp, hexp]

theorem mag_lt {x : F} (h : isFinite x) : mag x < 2 ^ 277 := by
  calc mag x < 2 ^ 24 * 2 ^ scale x := Nat.mul_lt_mul_of_pos_right (mant_lt x) (by positivity)
    _ ≤ 2 ^ 24 * 2 ^ 253 := Nat.mul_le_mul_left _ (Nat.pow_le_pow_right (by decide) (scale_le h))
    _ = 2 ^ 277 := by rw [← pow_add]

theorem mag_ge_of_normal {x : F} (h : 1 ≤ expField x) : 2 ^ 23 * 2 ^ scale x ≤ mag x := by
  rw [mag, mant_of_normal h]
  exact Nat.mul_le_mul_right _ (Nat.le_add_right _ _)

theorem mag_eq_zero_iff {x : F} : mag x = 0 ↔ isZero x := by
  have hm : mag x = 0 ↔ mant x = 0 := by simp [mag]
  rw [hm]
  unfold mant isZero
  split <;> simp_all

theorem units_of_isZero {x : F} (h : isZero x) : units x = 0 := by
  rw [← Int.natAbs_eq_zero, natAbs_units, mag_eq_zero_iff.mpr h]

theorem isFiniteNonzero_iff {x : F} : isFiniteNonzero x ↔ isFinite x ∧ mag x ≠ 0 := by
  simp [isFiniteNonzero, mag_eq_zero_iff]

/-! The pattern of a sign and a 31-bit magnitude pattern, and its fields. -/

section withSign

variable {s : Bool} {p : Nat}

theorem toNat_withSign (h : p < 2 ^ 31) : (withSign s p).toNat = (if s then 2 ^ 31 else 0) + p := by
  unfold withSign
  rw [BitVec.toNat_ofNat]
  split <;> omega

theorem sign_eq (x : F) : sign x = decide (2 ^ 31 ≤ x.toNat) := by
  have := x.isLt
  rw [sign, BitVec.getLsbD, Nat.testBit_eq_decide_div_mod_eq]
  exact decide_eq_decide.mpr (by omega)

theorem sign_withSign (h : p < 2 ^ 31) : sign (withSign s p) = s := by
  rw [sign_eq, toNat_withSign h]
  cases s
  · simpa using h
  · simp

theorem expField_withSign (h : p < 2 ^ 31) : expField (withSign s p) = p / 2 ^ 23 := by
  rw [expField, toNat_withSign h]
  split <;> omega

theorem fracField_withSign (h : p < 2 ^ 31) : fracField (withSign s p) = p % 2 ^ 23 := by
  rw [fracField, toNat_withSign h]
  split <;> omega

theorem withSign_fields (x : F) : withSign (sign x) (expField x * 2 ^ 23 + fracField x) = x := by
  have := x.isLt
  have hlt : expField x * 2 ^ 23 + fracField x < 2 ^ 31 := by
    have := expField_lt x
    have := fracField_lt x
    omega
  apply BitVec.eq_of_toNat_eq
  rw [toNat_withSign hlt, sign_eq, expField, fracField]
  simp only [decide_eq_true_eq]
  split <;> omega

/-- Every value is packed from its significand and its exponent: the leading bit of a normal significand carries into the
exponent field. -/
theorem withSign_scale_mant (x : F) : withSign (sign x) (scale x * 2 ^ 23 + mant x) = x := by
  have hp : scale x * 2 ^ 23 + mant x = expField x * 2 ^ 23 + fracField x := by
    unfold scale mant
    split <;> omega
  rw [hp, withSign_fields]

/-- The packed pattern of significand `n` and exponent `k`, a carry out of the significand among them. -/
theorem mag_withSign {k n : Nat} (hn : n ≤ 2 ^ 24) (hk : k = 0 ∨ 2 ^ 23 ≤ n) (hp : k * 2 ^ 23 + n < 2 ^ 31) :
    mag (withSign s (k * 2 ^ 23 + n)) = n * 2 ^ k := by
  rw [mag, mant, scale, expField_withSign hp, fracField_withSign hp]
  obtain hsub | hnorm | hcarry : n < 2 ^ 23 ∨ (2 ^ 23 ≤ n ∧ n < 2 ^ 24) ∨ n = 2 ^ 24 := by omega
  · obtain rfl : k = 0 := by omega
    have hdiv : (0 * 2 ^ 23 + n) / 2 ^ 23 = 0 := by omega
    rw [if_pos hdiv, hdiv, show (0 * 2 ^ 23 + n) % 2 ^ 23 = n by omega]
  · have hdiv : (k * 2 ^ 23 + n) / 2 ^ 23 = k + 1 := by omega
    rw [if_neg (by omega), hdiv, show 2 ^ 23 + (k * 2 ^ 23 + n) % 2 ^ 23 = n by omega, Nat.add_sub_cancel]
  · have hdiv : (k * 2 ^ 23 + n) / 2 ^ 23 = k + 2 := by omega
    rw [if_neg (by omega), hdiv, show (k * 2 ^ 23 + n) % 2 ^ 23 = 0 by omega, hcarry,
      show k + 2 - 1 = k + 1 by omega]
    ring

end withSign

theorem sign_zero (s : Bool) : sign (zero s) = s := sign_withSign (by decide)

theorem sign_infinity (s : Bool) : sign (infinity s) = s := sign_withSign (by decide)

theorem isFinite_infinity (s : Bool) : isFinite (infinity s) = false := by cases s <;> decide

theorem isInf_infinity (s : Bool) : isInf (infinity s) := by cases s <;> decide

/-- A zero or an infinity is known by its sign. -/
theorem eq_zero_of_isZero {x : F} (h : isZero x) : zero (sign x) = x := by
  obtain ⟨he, hf⟩ : expField x = 0 ∧ fracField x = 0 := by simpa [isZero] using h
  have hx := withSign_fields x
  rwa [he, hf] at hx

theorem eq_infinity_of_isInf {x : F} (h : isInf x) : infinity (sign x) = x := by
  obtain ⟨he, hf⟩ : expField x = 255 ∧ fracField x = 0 := by simpa [isInf] using h
  have hx := withSign_fields x
  rwa [he, hf] at hx

/-- Every product of 24 bits and a power of two, below the overflow, is the magnitude of a finite value. -/
theorem exists_mag_eq (s : Bool) {a k : Nat} (ha : a < 2 ^ 24) (hk : a * 2 ^ k < 2 ^ 277) :
    ∃ w : F, isFinite w ∧ sign w = s ∧ mag w = a * 2 ^ k := by
  have packed {a k : Nat} (ha : a < 2 ^ 24) (hn : k = 0 ∨ 2 ^ 23 ≤ a) (hk : k ≤ 253) :
      ∃ w : F, isFinite w ∧ sign w = s ∧ mag w = a * 2 ^ k := by
    have hp : k * 2 ^ 23 + a < 2 ^ 31 := by omega
    refine ⟨withSign s (k * 2 ^ 23 + a), ?_, sign_withSign hp, mag_withSign ha.le hn hp⟩
    rw [isFinite_iff, expField_withSign hp]
    omega
  induction k generalizing a with
  | zero => exact packed ha (.inl rfl) (by decide)
  | succ k ih =>
    by_cases hlow : a < 2 ^ 23
    · have hdouble : 2 * a * 2 ^ k = a * 2 ^ (k + 1) := by ring
      rw [← hdouble] at hk ⊢
      exact ih (by omega) hk
    · refine packed ha (.inr (by omega)) ?_
      by_contra hbig
      have : 2 ^ 23 * 2 ^ 254 ≤ a * 2 ^ (k + 1) :=
        Nat.mul_le_mul (by omega) (Nat.pow_le_pow_right (by decide) (by omega))
      rw [← pow_add] at this
      omega

end Sys2Proof.Float32

/-! PROOFS. The rounding of `m × 2 ^ (j - 298)`, the shape of every exact product and of every scaled quotient: where it is
exact, how far it is from the exact value, and where it overflows (R16; log 15). -/

namespace Sys2Proof.Float32

open Sys2Proof

/-- The unit of the rounded value, counted from `2 ^ (-149)`: what `round` calls `u`. -/
def roundedScale (m j : Nat) : Nat := j + Nat.log2 m - 172

/-- The rounded significand, in that unit: what `round` calls `n`. -/
def roundedMant (m j : Nat) : Nat :=
  if j ≤ roundedScale m j + 149 then roundShift m (roundedScale m j + 149 - j)
  else m * 2 ^ (j - (roundedScale m j + 149))

/-- The pattern that the rounded significand and its unit make, before the check for an overflow. -/
def roundedPattern (m j : Nat) : Nat := roundedScale m j * 2 ^ 23 + roundedMant m j

theorem round_eq (s : Bool) {m : Nat} (hm : m ≠ 0) (j : Nat) :
    round s m ((j : Int) - 298) =
      if 255 * 2 ^ 23 ≤ roundedPattern m j then infinity s else withSign s (roundedPattern m j) := by
  have hu : max ((j : Int) - 298 + (Nat.log2 m : Int) - 23) (-149) = (roundedScale m j : Int) - 149 := by
    unfold roundedScale; omega
  have hle : (j : Int) - 298 ≤ (roundedScale m j : Int) - 149 ↔ j ≤ roundedScale m j + 149 := by omega
  have hdown : ((roundedScale m j : Int) - 149 - ((j : Int) - 298)).toNat = roundedScale m j + 149 - j := by omega
  have hup : ((j : Int) - 298 - ((roundedScale m j : Int) - 149)).toNat = j - (roundedScale m j + 149) := by omega
  have hbias : ((roundedScale m j : Int) - 149 + 149).toNat = roundedScale m j := by omega
  have hn : (if (j : Int) - 298 ≤ (roundedScale m j : Int) - 149 then roundShift m (roundedScale m j + 149 - j)
      else m * 2 ^ (j - (roundedScale m j + 149))) = roundedMant m j := if_congr hle rfl rfl
  simp only [round, if_neg hm, hu, hdown, hup, hbias, hn, roundedPattern]
  exact if_congr Iff.rfl rfl rfl

theorem sign_round (s : Bool) (m j : Nat) : sign (round s m ((j : Int) - 298)) = s := by
  obtain rfl | hm := eq_or_ne m 0
  · exact sign_zero s
  · rw [round_eq s hm]
    split
    · exact sign_infinity s
    · exact sign_withSign (by omega)

/-! Rounding to an integer. -/

theorem roundShift_mul_pow (a k : Nat) : roundShift (a * 2 ^ k) k = a := by
  obtain rfl | hk := eq_or_ne k 0
  · simp [roundShift]
  · have hhalf : 0 < 2 ^ (k - 1) := by positivity
    rw [roundShift, if_neg hk]
    dsimp only
    rw [Nat.mul_mod_left, Nat.mul_div_left a (by positivity), if_neg (by omega)]

theorem roundShift_cases (m k : Nat) :
    (roundShift m (k + 1) = m / 2 ^ (k + 1) + 1 ∧ 2 ^ k ≤ m % 2 ^ (k + 1)) ∨
      (roundShift m (k + 1) = m / 2 ^ (k + 1) ∧ m % 2 ^ (k + 1) ≤ 2 ^ k) := by
  simp only [roundShift, Nat.add_one_ne_zero, if_false, Nat.add_sub_cancel]
  split <;> omega

theorem le_roundShift (m k : Nat) : m / 2 ^ k ≤ roundShift m k := by
  cases k with
  | zero => simp [roundShift]
  | succ k => obtain ⟨h, -⟩ | ⟨h, -⟩ := roundShift_cases m k <;> omega

theorem roundShift_le (m k : Nat) : roundShift m k ≤ m / 2 ^ k + 1 := by
  cases k with
  | zero => simp [roundShift]
  | succ k => obtain ⟨h, -⟩ | ⟨h, -⟩ := roundShift_cases m k <;> omega

/-- Rounding to an integer moves by half a unit at most. -/
theorem roundShift_error (m k : Nat) : |((roundShift m k * 2 ^ k : Nat) : Int) - m| * 2 ≤ 2 ^ k := by
  cases k with
  | zero => simp [roundShift]
  | succ k =>
    have hdiv : ((2 ^ (k + 1) * (m / 2 ^ (k + 1)) + m % 2 ^ (k + 1) : Nat) : Int) = m :=
      congrArg Nat.cast (Nat.div_add_mod m _)
    have hpos : 0 ≤ ((m % 2 ^ (k + 1) : Nat) : Int) := Int.natCast_nonneg _
    have hmod : ((m % 2 ^ (k + 1) : Nat) : Int) < 2 ^ (k + 1) := mod_cast Nat.mod_lt _ (by positivity)
    have hbound : |((roundShift m (k + 1) * 2 ^ (k + 1) : Nat) : Int) - m| ≤ 2 ^ k := by
      rw [← hdiv, abs_le]
      obtain ⟨h, hr⟩ | ⟨h, hr⟩ := roundShift_cases m k
      all_goals
        rw [h]
        zify at hr
        push_cast [pow_succ] at *
        constructor <;> linarith
    have hpow : (2 : Int) ^ (k + 1) = 2 ^ k * 2 := pow_succ 2 k
    omega

/-! The rounded significand. -/

theorem roundedMant_le (m j : Nat) : roundedMant m j ≤ 2 ^ 24 := by
  have hlt : m < 2 ^ (Nat.log2 m + 1) := Nat.lt_log2_self
  unfold roundedMant
  split
  · have hk : Nat.log2 m + 1 ≤ roundedScale m j + 149 - j + 24 := by unfold roundedScale; omega
    refine (roundShift_le _ _).trans (Nat.div_lt_of_lt_mul ?_)
    rw [← pow_add]
    exact hlt.trans_le (Nat.pow_le_pow_right (by decide) hk)
  · have hk : Nat.log2 m + 1 + (j - (roundedScale m j + 149)) ≤ 24 := by
      unfold roundedScale at *; omega
    calc m * 2 ^ (j - (roundedScale m j + 149))
        ≤ 2 ^ (Nat.log2 m + 1) * 2 ^ (j - (roundedScale m j + 149)) := Nat.mul_le_mul_right _ hlt.le
      _ ≤ 2 ^ 24 := by rw [← pow_add]; exact Nat.pow_le_pow_right (by decide) hk

/-- Above the least unit the rounded significand has its leading bit. -/
theorem roundedMant_ge {m : Nat} (hm : m ≠ 0) (j : Nat) : roundedScale m j = 0 ∨ 2 ^ 23 ≤ roundedMant m j := by
  have hge : 2 ^ Nat.log2 m ≤ m := Nat.log2_self_le hm
  rw [or_iff_not_imp_left]
  intro hk
  unfold roundedMant
  split
  · refine le_trans ?_ (le_roundShift _ _)
    rw [Nat.le_div_iff_mul_le (by positivity), ← pow_add]
    refine le_trans (Nat.pow_le_pow_right (by decide) ?_) hge
    unfold roundedScale at *; omega
  · calc 2 ^ 23 ≤ 2 ^ (Nat.log2 m + (j - (roundedScale m j + 149))) :=
          Nat.pow_le_pow_right (by decide) (by unfold roundedScale at *; omega)
      _ ≤ m * 2 ^ (j - (roundedScale m j + 149)) := by rw [pow_add]; exact Nat.mul_le_mul_right _ hge

/-- The rounded value is half a unit at most from the exact one. -/
theorem roundedMant_error (m j : Nat) :
    |((roundedMant m j * 2 ^ roundedScale m j * 2 ^ 149 : Nat) : Int) - (m * 2 ^ j : Nat)| * 2 ≤
      2 ^ (roundedScale m j + 149) := by
  rw [mul_assoc, ← pow_add]
  unfold roundedMant
  split
  · next hj =>
    obtain ⟨d, hd⟩ := Nat.exists_eq_add_of_le hj
    rw [hd, Nat.add_sub_cancel_left]
    calc |((roundShift m d * 2 ^ (j + d) : Nat) : Int) - (m * 2 ^ j : Nat)| * 2
        = |(((roundShift m d * 2 ^ d : Nat) : Int) - m) * 2 ^ j| * 2 := by push_cast; ring_nf
      _ = |((roundShift m d * 2 ^ d : Nat) : Int) - m| * 2 * 2 ^ j := by rw [abs_mul, abs_pow, Nat.abs_ofNat]; ring
      _ ≤ 2 ^ d * 2 ^ j := Int.mul_le_mul_of_nonneg_right (roundShift_error m d) (by positivity)
      _ = 2 ^ (j + d) := by ring
  · next hj =>
    rw [mul_assoc, ← pow_add, Nat.sub_add_cancel (by omega)]
    simp

/-! What the rounded value is. -/

theorem log2_mul_pow {a : Nat} (ha : a ≠ 0) (k : Nat) : Nat.log2 (a * 2 ^ k) = Nat.log2 a + k := by
  rw [Nat.log2_eq_iff (by positivity), pow_add, Nat.add_right_comm, pow_add]
  exact ⟨Nat.mul_le_mul_right _ (Nat.log2_self_le ha), Nat.mul_lt_mul_of_pos_right Nat.lt_log2_self (by positivity)⟩

theorem le_log2_add {a k t : Nat} (ha : a ≠ 0) (h : 2 ^ t ≤ a * 2 ^ k) : t ≤ Nat.log2 a + k := by
  rw [← log2_mul_pow ha]
  exact (Nat.le_log2 (by positivity)).mpr h

/-- A value that the format can hold is rounded in its own unit. -/
theorem roundedScale_of_exact {w : F} {m j : Nat} (hm : m ≠ 0) (hw : mant w ≠ 0)
    (h : m * 2 ^ j = mant w * 2 ^ (scale w + 149)) : roundedScale m j = scale w := by
  have hlog : Nat.log2 m + j = Nat.log2 (mant w) + (scale w + 149) := by
    rw [← log2_mul_pow hm, ← log2_mul_pow hw, h]
  have hlt : Nat.log2 (mant w) < 24 := (Nat.log2_lt hw).mpr (mant_lt w)
  have hge : 2 ^ 23 ≤ mant w → 23 ≤ Nat.log2 (mant w) := (Nat.le_log2 hw).mpr
  have hnormal := scale_eq_zero_or_mant_ge w
  unfold roundedScale
  omega

theorem roundedMant_of_exact {w : F} {m j : Nat} (hm : m ≠ 0) (hw : mant w ≠ 0)
    (h : m * 2 ^ j = mant w * 2 ^ (scale w + 149)) : roundedMant m j = mant w := by
  rw [roundedMant, roundedScale_of_exact hm hw h]
  split
  · next hj =>
    obtain ⟨d, hd⟩ := Nat.exists_eq_add_of_le hj
    rw [hd, pow_add, mul_comm (2 ^ j), ← mul_assoc] at h
    rw [hd, Nat.add_sub_cancel_left, Nat.eq_of_mul_eq_mul_right (by positivity) h, roundShift_mul_pow]
  · next hj =>
    obtain ⟨d, rfl⟩ := Nat.exists_eq_add_of_le (Nat.le_of_not_le hj)
    rw [pow_add, mul_comm (2 ^ (scale w + 149)), ← mul_assoc] at h
    rw [Nat.add_sub_cancel_left, Nat.eq_of_mul_eq_mul_right (by positivity) h]

/-- A value that the format can hold is its own rounding. -/
theorem round_of_exact {w : F} (hw : isFinite w) {m j : Nat} (h : m * 2 ^ j = mag w * 2 ^ 149) :
    round (sign w) m ((j : Int) - 298) = w := by
  obtain rfl | hm := eq_or_ne m 0
  · exact eq_zero_of_isZero (mag_eq_zero_iff.mp (by simpa using h.symm))
  have hmant : mant w ≠ 0 := by
    rintro h0
    simp [mag, h0, hm] at h
  have hpow : m * 2 ^ j = mant w * 2 ^ (scale w + 149) := by rw [h, mag, pow_add, mul_assoc]
  have hscale := roundedScale_of_exact hm hmant hpow
  have hn := roundedMant_of_exact hm hmant hpow
  have hlt : roundedPattern m j < 255 * 2 ^ 23 := by
    have := mant_lt w
    have := scale_le hw
    unfold roundedPattern
    omega
  rw [round_eq _ hm, if_neg (by omega), roundedPattern, hscale, hn, withSign_scale_mant]

/-- A value of `2 ^ 128` or more overflows. -/
theorem round_of_overflow (s : Bool) {m j : Nat} (h : 2 ^ (277 + 149) ≤ m * 2 ^ j) :
    round s m ((j : Int) - 298) = infinity s := by
  have hm : m ≠ 0 := left_ne_zero_of_mul (lt_of_lt_of_le (by positivity) h).ne'
  have hexp := le_log2_add hm h
  have hoverflow : 255 * 2 ^ 23 ≤ roundedPattern m j := by
    clear h
    have := roundedMant_ge hm j
    unfold roundedPattern
    unfold roundedScale at *
    omega
  rw [round_eq s hm, if_pos hoverflow]

/-- The magnitude of a finite result: a carry out of the significand is kept, and nothing else is lost. -/
theorem mag_round {s : Bool} {m j : Nat} (hm : m ≠ 0) (hfin : isFinite (round s m ((j : Int) - 298))) :
    mag (round s m ((j : Int) - 298)) = roundedMant m j * 2 ^ roundedScale m j := by
  rw [round_eq s hm] at hfin ⊢
  split at hfin
  · simp [isFinite_infinity] at hfin
  · next hlt =>
    rw [if_neg hlt, roundedPattern]
    unfold roundedPattern at hlt
    exact mag_withSign (roundedMant_le m j) (roundedMant_ge hm j) (by omega)

theorem expField_round_zero_mant (s : Bool) (e : Int) : expField (round s 0 e) = 0 :=
  expField_withSign (by decide)

/-- A normal result is within `2 ^ (-24)` of its own magnitude from the exact value. -/
theorem round_error {s : Bool} {m j : Nat} (hlo : 1 ≤ expField (round s m ((j : Int) - 298)))
    (hhi : expField (round s m ((j : Int) - 298)) ≤ 254) :
    |((mag (round s m ((j : Int) - 298)) * 2 ^ 149 : Nat) : Int) - (m * 2 ^ j : Nat)| * 2 ^ 24 ≤
      (mag (round s m ((j : Int) - 298)) * 2 ^ 149 : Nat) := by
  have hm : m ≠ 0 := by
    rintro rfl
    rw [expField_round_zero_mant] at hlo
    omega
  have hmag := mag_round hm (isFinite_iff.mpr hhi)
  have hbit : 2 ^ 23 ≤ roundedMant m j := by
    refine (roundedMant_ge hm j).elim (fun hk => ?_) id
    simpa [hmag, hk] using (mag_ge_of_normal hlo).trans' (Nat.le_mul_of_pos_right _ (by positivity))
  rw [hmag]
  calc _ = |((roundedMant m j * 2 ^ roundedScale m j * 2 ^ 149 : Nat) : Int) - (m * 2 ^ j : Nat)| * 2 * 2 ^ 23 := by
        ring
    _ ≤ 2 ^ (roundedScale m j + 149) * 2 ^ 23 :=
        Int.mul_le_mul_of_nonneg_right (roundedMant_error m j) (by positivity)
    _ = (2 ^ 23 * (2 ^ roundedScale m j * 2 ^ 149) : Nat) := by push_cast; ring
    _ ≤ (roundedMant m j * 2 ^ roundedScale m j * 2 ^ 149 : Nat) := by
        rw [mul_assoc]
        exact_mod_cast Nat.mul_le_mul_right _ hbit

/-- A value of a whole unit or more does not round to zero. -/
theorem mag_round_ne_zero {s : Bool} {m j : Nat} (h : 2 ^ 149 ≤ m * 2 ^ j)
    (hfin : isFinite (round s m ((j : Int) - 298))) : mag (round s m ((j : Int) - 298)) ≠ 0 := by
  have hm : m ≠ 0 := by
    rintro rfl
    simp at h
  rw [mag_round hm hfin]
  intro h0
  have hn : roundedMant m j = 0 := by simpa using h0
  have hk : roundedScale m j = 0 := (roundedMant_ge hm j).resolve_right (by omega)
  have herr := roundedMant_error m j
  rw [hn, hk] at herr
  zify at h
  rw [Nat.zero_mul, Nat.zero_mul, Nat.cast_zero, zero_sub, abs_neg, Nat.abs_cast] at herr
  push_cast at herr
  norm_num at herr h
  omega

end Sys2Proof.Float32

/-! PROOFS. The product of two finite values and the reciprocal of one, by their exact magnitudes (R16, R237). -/

namespace Sys2Proof.Float32

open Sys2Proof

/-! Multiplication. -/

section mul

variable {nan a b w : F}

theorem mul_of_isFinite (ha : isFinite a) (hb : isFinite b) :
    mul nan a b =
      round (sign a != sign b) (mant a * mant b) (((scale a + scale b : Nat) : Int) - 298) := by
  have hexpo : expo a + expo b = ((scale a + scale b : Nat) : Int) - 298 := by
    rw [expo_eq, expo_eq]; omega
  simp [mul, isNaN_of_isFinite, isInf_of_isFinite, ha, hb, hexpo]

theorem mant_mul_mant (a b : F) : mant a * mant b * 2 ^ (scale a + scale b) = mag a * mag b := by
  rw [mag, mag, pow_add]; ring

theorem sign_mul (ha : isFinite a) (hb : isFinite b) : sign (mul nan a b) = (sign a != sign b) := by
  rw [mul_of_isFinite ha hb, sign_round]

/-- A product that the format can hold is exact. -/
theorem mul_of_exact (ha : isFinite a) (hb : isFinite b) (hw : isFinite w) (hs : sign w = (sign a != sign b))
    (h : mag a * mag b = mag w * 2 ^ 149) : mul nan a b = w := by
  rw [mul_of_isFinite ha hb, ← hs]
  exact round_of_exact hw (by rw [mant_mul_mant, h])

theorem mul_of_isInf (ha : isInf a) (hb : isFiniteNonzero b) : mul nan a b = infinity (sign a != sign b) := by
  obtain ⟨hfin, hne⟩ := isFiniteNonzero_iff.mp hb
  have hzero : isZero b = false := by simpa [mag_eq_zero_iff] using hne
  have hinf : isZero a = false := by simp_all [isInf, isZero]
  simp [mul, isNaN_of_isInf ha, isNaN_of_isFinite hfin, ha, hzero, hinf]

theorem mul_of_isZero (ha : isZero a) (hb : isFinite b) : isZero (mul nan a b) := by
  have hfin : isFinite a := by simp_all [isZero, isFinite]
  have hw : isZero (zero (sign a != sign b)) := by cases sign a != sign b <;> decide
  have hmul : mul nan a b = zero (sign a != sign b) :=
    mul_of_exact hfin hb (by simp_all [isZero, isFinite]) (sign_zero _) (by simp [mag_eq_zero_iff.mpr, ha, hw])
  rwa [hmul]

/-- A normal product is within `2 ^ (-24)` of its own magnitude from the exact one. -/
theorem mul_error (ha : isFinite a) (hb : isFinite b) (hlo : 1 ≤ expField (mul nan a b))
    (hhi : expField (mul nan a b) ≤ 254) :
    |((mag (mul nan a b) * 2 ^ 149 : Nat) : Int) - (mag a * mag b : Nat)| * 2 ^ 24 ≤
      (mag (mul nan a b) * 2 ^ 149 : Nat) := by
  rw [mul_of_isFinite ha hb] at hlo hhi ⊢
  rw [← mant_mul_mant]
  exact round_error hlo hhi

end mul

/-! The reciprocal, `1.0` divided by a finite value. -/

section reciprocal

variable {nan b w : F}

/-- The significand that `div` rounds for `1.0 / b`: a quotient of 76 bits, the last one for what was left over. -/
def recipMant (b : F) : Nat := 2 * (2 ^ 75 / mant b) + if 2 ^ 75 % mant b = 0 then 0 else 1

/-- Its exponent, counted from -298. -/
def recipScale (b : F) : Nat := 371 - scale b

theorem div_one_of_isFiniteNonzero (hb : isFiniteNonzero b) :
    div nan 0x3F800000#32 b = round (sign b) (recipMant b) ((recipScale b : Int) - 298) := by
  obtain ⟨hfin, hne⟩ := isFiniteNonzero_iff.mp hb
  have hzero : isZero b = false := by simpa [mag_eq_zero_iff] using hne
  have hone : isNaN 0x3F800000#32 = false ∧ isInf 0x3F800000#32 = false ∧ sign 0x3F800000#32 = false ∧
      mant 0x3F800000#32 * 2 ^ 52 = 2 ^ 75 ∧ expo 0x3F800000#32 = -23 := by decide
  obtain ⟨hnan, hinf, hsign, hmant, hexpo⟩ := hone
  have hscale : -23 - expo b - 53 = (recipScale b : Int) - 298 := by
    have := scale_le hfin
    rw [expo_eq, recipScale]
    omega
  simp only [div, hnan, hinf, hsign, hmant, hexpo, hscale, hzero, isNaN_of_isFinite hfin, isInf_of_isFinite hfin,
    Bool.false_bne, Bool.or_false, Bool.false_eq_true, if_false, recipMant]

theorem sign_div_one (hb : isFiniteNonzero b) : sign (div nan 0x3F800000#32 b) = sign b := by
  rw [div_one_of_isFiniteNonzero hb, sign_round]

theorem recipMant_mul_mant (hfin : isFinite b) :
    recipMant b * 2 ^ recipScale b * mag b = recipMant b * mant b * 2 ^ 371 := by
  have hscale : recipScale b + scale b = 371 := by
    have := scale_le hfin
    rw [recipScale]; omega
  rw [mag, ← hscale, pow_add]
  ring

/-- The significand is exact where the quotient is. -/
theorem recip_of_dvd (hfin : isFinite b) (h : mant b ∣ 2 ^ 75) :
    recipMant b * 2 ^ recipScale b * mag b = 2 ^ (298 + 149) := by
  have hquot : recipMant b * mant b = 2 ^ 76 := by
    rw [recipMant, if_pos (Nat.mod_eq_zero_of_dvd h), Nat.add_zero, mul_assoc, Nat.div_mul_cancel h]
    norm_num
  rw [recipMant_mul_mant hfin, hquot, ← pow_add]

/-- The significand is within one of twice the exact quotient. -/
theorem recipMant_error (hb : 0 < mant b) : |((recipMant b * mant b : Nat) : Int) - 2 ^ 76| ≤ (mant b : Int) := by
  have hdiv := Nat.div_add_mod (2 ^ 75) (mant b)
  have hmod := Nat.mod_lt (2 ^ 75) hb
  have hexpand : recipMant b * mant b =
      2 * (mant b * (2 ^ 75 / mant b)) + if 2 ^ 75 % mant b = 0 then 0 else mant b := by
    rw [recipMant, add_mul, ite_mul, Nat.zero_mul, Nat.one_mul]
    ring_nf
  rw [hexpand, abs_le]
  split <;> constructor <;> omega

/-- The value that is rounded is within `2 ^ (-52)` of the exact reciprocal. -/
theorem recip_error (hb : isFiniteNonzero b) :
    |((recipMant b * 2 ^ recipScale b * mag b : Nat) : Int) - 2 ^ (298 + 149)| * 2 ^ 52 ≤ 2 ^ (298 + 149) := by
  obtain ⟨hfin, hne⟩ := isFiniteNonzero_iff.mp hb
  have hpos : 0 < mant b := Nat.pos_of_ne_zero fun h0 => hne (by rw [mag, h0, Nat.zero_mul])
  have hlt : (mant b : Int) ≤ 2 ^ 24 := mod_cast (mant_lt b).le
  rw [recipMant_mul_mant hfin]
  calc |((recipMant b * mant b * 2 ^ 371 : Nat) : Int) - 2 ^ (298 + 149)| * 2 ^ 52
      = |(((recipMant b * mant b : Nat) : Int) - 2 ^ 76) * 2 ^ 371| * 2 ^ 52 := by
        rw [Nat.cast_mul, Nat.cast_pow, Nat.cast_ofNat, sub_mul, ← pow_add]
    _ = |((recipMant b * mant b : Nat) : Int) - 2 ^ 76| * (2 ^ 371 * 2 ^ 52) := by
        rw [abs_mul, abs_pow, Nat.abs_ofNat, mul_assoc]
    _ ≤ 2 ^ 24 * (2 ^ 371 * 2 ^ 52) :=
        Int.mul_le_mul_of_nonneg_right ((recipMant_error hpos).trans hlt) (by positivity)
    _ = 2 ^ (298 + 149) := by rw [← pow_add, ← pow_add]

/-- A reciprocal that the format can hold is exact. -/
theorem div_one_of_exact (hb : isFiniteNonzero b) (hdvd : mant b ∣ 2 ^ 75) (hw : isFinite w) (hs : sign w = sign b)
    (h : mag w * mag b = 2 ^ 298) : div nan 0x3F800000#32 b = w := by
  obtain ⟨hfin, hne⟩ := isFiniteNonzero_iff.mp hb
  rw [div_one_of_isFiniteNonzero hb, ← hs]
  refine round_of_exact hw (Nat.eq_of_mul_eq_mul_right (Nat.pos_of_ne_zero hne) ?_)
  rw [recip_of_dvd hfin hdvd, pow_add, ← h]
  ring

/-- The reciprocal of a finite value does not round to zero. -/
theorem mag_div_one_ne_zero (hb : isFiniteNonzero b) (hfin : isFinite (div nan 0x3F800000#32 b)) :
    mag (div nan 0x3F800000#32 b) ≠ 0 := by
  rw [div_one_of_isFiniteNonzero hb] at hfin ⊢
  refine mag_round_ne_zero ?_ hfin
  by_contra hsmall
  have hlt : recipMant b * 2 ^ recipScale b * mag b < 2 ^ 149 * 2 ^ 277 :=
    Nat.mul_lt_mul'' (Nat.not_le.mp hsmall) (mag_lt (isFiniteNonzero_iff.mp hb).1)
  have herr := recip_error hb
  zify at hlt
  rw [← pow_add] at hlt
  rw [show (2 : Int) ^ (298 + 149) = 2 ^ 21 * 2 ^ (149 + 277) by rw [← pow_add]] at herr
  have hpos : (0 : Int) < 2 ^ (149 + 277) := by positivity
  generalize (2 : Int) ^ (149 + 277) = N at *
  have habs := neg_abs_le (((recipMant b * 2 ^ recipScale b * mag b : Nat) : Int) - 2 ^ 21 * N)
  push_cast at *
  linarith

/-- A normal reciprocal times its argument is 1, within the rounding error. -/
theorem div_one_error (hb : isFiniteNonzero b) (hlo : 1 ≤ expField (div nan 0x3F800000#32 b))
    (hhi : expField (div nan 0x3F800000#32 b) ≤ 254) :
    |((mag (div nan 0x3F800000#32 b) * mag b : Nat) : Int) - 2 ^ 298| * 2 ^ 25 ≤ 3 * 2 ^ 298 := by
  rw [div_one_of_isFiniteNonzero hb] at hlo hhi ⊢
  have hround := round_error hlo hhi
  have hrecip := recip_error hb
  generalize mag (round (sign b) (recipMant b) ((recipScale b : Int) - 298)) = r at *
  generalize recipMant b * 2 ^ recipScale b = v at *
  rw [pow_add] at hrecip
  have hunit : (0 : Int) < 2 ^ 149 := by positivity
  generalize (2 : Int) ^ 298 = one at *
  simp only [Nat.cast_mul, Nat.cast_pow, Nat.cast_ofNat] at hround hrecip ⊢
  generalize (2 : Int) ^ 149 = unit at *
  have hscaled : |(r * mag b * unit : Int) - v * mag b| * 2 ^ 24 ≤ r * mag b * unit := by
    calc |(r * mag b * unit : Int) - v * mag b| * 2 ^ 24 = |(r * unit : Int) - v| * 2 ^ 24 * mag b := by
          rw [show (r * mag b * unit : Int) - v * mag b = (r * unit - v) * mag b by ring, abs_mul, Nat.abs_cast]
          ring
      _ ≤ r * unit * mag b := Int.mul_le_mul_of_nonneg_right hround (Int.natCast_nonneg _)
      _ = r * mag b * unit := by ring
  refine le_of_mul_le_mul_right ?_ hunit
  calc |(r * mag b : Int) - one| * 2 ^ 25 * unit = |(r * mag b * unit : Int) - one * unit| * 2 ^ 25 := by
        rw [← sub_mul, abs_mul, abs_of_pos hunit]; ring
    _ ≤ 3 * one * unit := by
        have hround₁ := le_abs_self (r * mag b * unit - v * mag b : Int)
        have hround₂ := neg_abs_le (r * mag b * unit - v * mag b : Int)
        have hrecip₁ := le_abs_self (v * mag b - one * unit : Int)
        have hrecip₂ := neg_abs_le (v * mag b - one * unit : Int)
        obtain ⟨habs, -⟩ | ⟨habs, -⟩ := abs_cases (r * mag b * unit - one * unit : Int) <;> rw [habs] <;> linarith

end reciprocal

end Sys2Proof.Float32

/-! PROOFS. The scale constants of every configuration and the conversion round trip that they make (R10, R237; log 5). -/

namespace Sys2Proof.Config

open Sys2Proof Sys2Proof.Float32

variable {c : Config}

/-! The scale constants. -/

theorem inScale_isFiniteNonzero (c : Config) : isFiniteNonzero c.inScale := by
  obtain ⟨hraw, heq⟩ | heq := c.inScale_cases
  · rwa [heq]
  · rw [heq]; decide

theorem inScale_isFinite (c : Config) : isFinite c.inScale := (isFiniteNonzero_iff.mp c.inScale_isFiniteNonzero).1

theorem reciprocal_of_isFinite {x : F} (h : isFinite (c.fdiv 0x3F800000#32 x)) :
    c.reciprocal x = c.fdiv 0x3F800000#32 x := if_pos h

theorem reciprocal_of_overflow {x : F} (h : ¬ isFinite (c.fdiv 0x3F800000#32 x)) :
    c.reciprocal x = withSign (sign x) 0x7F7FFFFF := if_neg h

/-- The finite value nearest to `1 / IN_SCALE`: finite, not zero, of the sign of `IN_SCALE`. -/
theorem reciprocal_spec {x : F} (hx : isFiniteNonzero x) :
    isFiniteNonzero (c.reciprocal x) ∧ sign (c.reciprocal x) = sign x := by
  by_cases h : isFinite (c.fdiv 0x3F800000#32 x)
  · rw [reciprocal_of_isFinite h, isFiniteNonzero_iff]
    exact ⟨⟨h, mag_div_one_ne_zero hx h⟩, sign_div_one hx⟩
  · rw [reciprocal_of_overflow h]
    exact ⟨by cases sign x <;> decide, sign_withSign (by decide)⟩

/-- What is kept of the legality of `OUT_SCALE` (R10; log 5). -/
theorem outScale_spec (c : Config) :
    isFiniteNonzero c.outScale ∧ sign c.outScale = sign c.inScale ∧
      (units c.outScale - units (c.reciprocal c.inScale)).natAbs ≤
        c.choices.scaleTolerance * ulp (c.reciprocal c.inScale) ∧
      (isPowerOfTwo c.inScale → isPowerOfTwo c.outScale → c.outScale = c.reciprocal c.inScale) := by
  obtain ⟨hlegal, heq⟩ | heq := c.outScale_cases
  · rw [heq]
    simp only [outScaleLegal, Bool.and_eq_true, beq_iff_eq, decide_eq_true_eq, Bool.or_eq_true,
      Bool.not_eq_true'] at hlegal
    obtain ⟨⟨⟨hfin, hsign⟩, htol⟩, hpow⟩ := hlegal
    refine ⟨hfin, hsign, htol, fun hin hout => ?_⟩
    simpa [hin, hout] using hpow
  · rw [heq]
    obtain ⟨hfin, hsign⟩ := reciprocal_spec (c := c) c.inScale_isFiniteNonzero
    exact ⟨hfin, hsign, by simp, fun _ _ => rfl⟩

theorem outScale_isFinite (c : Config) : isFinite c.outScale := (isFiniteNonzero_iff.mp c.outScale_spec.1).1

end Sys2Proof.Config

/-! The exact round trip of powers of two. -/

namespace Sys2Proof.Float32

variable {x : F} {m : Nat}

/-- A magnitude that is a power of two has a significand that is one. -/
theorem mant_eq_pow_of_mag (h : mag x = 2 ^ m) : ∃ i ≤ 23, mant x = 2 ^ i := by
  obtain ⟨i, -, hi⟩ := (Nat.dvd_prime_pow Nat.prime_two).mp (Dvd.intro (2 ^ scale x) h : mant x ∣ 2 ^ m)
  have hlt : 2 ^ i < 2 ^ 24 := hi ▸ mant_lt x
  exact ⟨i, Nat.lt_succ_iff.mp ((Nat.pow_lt_pow_iff_right (by decide)).mp hlt), hi⟩

theorem isPowerOfTwo_of_mag (hx : isFinite x) (h : mag x = 2 ^ m) : isPowerOfTwo x := by
  obtain ⟨i, -, hi⟩ := mant_eq_pow_of_mag h
  simp [isPowerOfTwo, hx, hi, Nat.log2_two_pow]

theorem mant_dvd_of_mag (h : mag x = 2 ^ m) : mant x ∣ 2 ^ 75 := by
  obtain ⟨i, hle, hi⟩ := mant_eq_pow_of_mag h
  rw [hi]
  exact Nat.pow_dvd_pow 2 (by omega)

/-- The greatest finite magnitude is no power of two. -/
theorem mag_greatest_ne_pow (s : Bool) (n : Nat) : mag (withSign s 0x7F7FFFFF) ≠ 2 ^ n := by
  intro h
  have hmant : mant (withSign s 0x7F7FFFFF) = 2 ^ 24 - 1 := by cases s <;> decide
  have hdvd : 2 ^ 24 - 1 ∣ 2 ^ n := by rw [← h, mag, hmant]; exact Nat.dvd_mul_right _ _
  have hcop : Nat.Coprime (2 ^ 24 - 1) (2 ^ n) := Nat.Coprime.pow_right n (by decide)
  exact absurd (hcop.eq_one_of_dvd hdvd) (by decide)

/-- The reciprocal of a power of two overflows or is exact. -/
theorem div_one_of_pow {nan : F} (hx : isFiniteNonzero x) (h : mag x = 2 ^ m) :
    div nan 0x3F800000#32 x = infinity (sign x) ∨ m ≤ 298 ∧ mag (div nan 0x3F800000#32 x) = 2 ^ (298 - m) := by
  have hdvd := mant_dvd_of_mag h
  have hfin := (isFiniteNonzero_iff.mp hx).1
  have hle : m < 277 := (Nat.pow_lt_pow_iff_right (by decide)).mp (h ▸ mag_lt hfin)
  by_cases hm : m < 22
  · left
    rw [div_one_of_isFiniteNonzero hx]
    apply round_of_overflow
    have hexact := recip_of_dvd hfin hdvd
    rw [h] at hexact
    refine Nat.le_of_mul_le_mul_right (?_ : _ * 2 ^ m ≤ _ * 2 ^ m) (by positivity)
    rw [hexact, ← pow_add]
    exact pow_le_pow_right₀ (by decide) (by omega)
  · right
    have hlt : 1 * 2 ^ (298 - m) < 2 ^ 277 := by
      rw [one_mul]
      exact pow_lt_pow_right₀ (by decide) (by omega)
    obtain ⟨w, hw, hsign, hmag⟩ := exists_mag_eq (sign x) (by decide : 1 < 2 ^ 24) hlt
    rw [one_mul] at hmag
    have hinv : mag w * mag x = 2 ^ 298 := by
      rw [hmag, h, ← pow_add]
      congr 1
      omega
    rw [div_one_of_exact hx hdvd hw hsign hinv]
    exact ⟨by omega, hmag⟩

/-- The exact product of a finite value and a power of two, where it is a whole number of units, is a finite value. -/
theorem exists_exact_product (s : Bool) (hdvd : 2 ^ 149 ∣ mag x * 2 ^ m) (hlt : mag x * 2 ^ m / 2 ^ 149 < 2 ^ 149 * 2 ^ 128) :
    ∃ y : F, isFinite y ∧ sign y = s ∧ mag x * 2 ^ m = mag y * 2 ^ 149 := by
  obtain ⟨p, hp⟩ := hdvd
  rw [hp, Nat.mul_div_cancel_left p (by positivity), ← pow_add, show 149 + 128 = 277 from rfl] at hlt
  suffices h : ∃ a k, a < 2 ^ 24 ∧ p = a * 2 ^ k by
    obtain ⟨a, k, ha, rfl⟩ := h
    obtain ⟨y, hfin, hsign, hmag⟩ := exists_mag_eq s ha hlt
    exact ⟨y, hfin, hsign, by rw [hp, hmag, mul_comm]⟩
  rw [mag, mul_assoc, ← pow_add, mul_comm (2 ^ 149)] at hp
  obtain h | h := Nat.le_total 149 (scale x + m)
  · obtain ⟨k, hk⟩ := Nat.exists_eq_add_of_le h
    rw [hk, pow_add, mul_comm (2 ^ 149), ← mul_assoc] at hp
    exact ⟨mant x, k, mant_lt x, (Nat.eq_of_mul_eq_mul_right (by positivity) hp).symm⟩
  · obtain ⟨k, hk⟩ := Nat.exists_eq_add_of_le h
    rw [hk, pow_add _ _ k, mul_comm (2 ^ (scale x + m)) (2 ^ k), ← mul_assoc] at hp
    have hmant := Nat.eq_of_mul_eq_mul_right (by positivity) hp
    refine ⟨p, 0, ?_, by simp⟩
    calc p ≤ p * 2 ^ k := Nat.le_mul_of_pos_right p (by positivity)
      _ = mant x := hmant.symm
      _ < 2 ^ 24 := mant_lt x

end Sys2Proof.Float32

namespace Sys2Proof.Config

open Sys2Proof Sys2Proof.Float32

variable {c : Config}

/-- Two scale constants that are powers of two are inverse (R237, D6). -/
theorem scale_exponents_add {m n : Nat} (hm : mag c.inScale = 2 ^ m) (hn : mag c.outScale = 2 ^ n) : m + n = 298 := by
  have hin := c.inScale_isFiniteNonzero
  obtain ⟨-, -, -, hinverse⟩ := c.outScale_spec
  have hrecip : c.outScale = c.reciprocal c.inScale :=
    hinverse (isPowerOfTwo_of_mag c.inScale_isFinite hm) (isPowerOfTwo_of_mag c.outScale_isFinite hn)
  rw [hrecip] at hn
  by_cases hfin : isFinite (c.fdiv 0x3F800000#32 c.inScale)
  · rw [reciprocal_of_isFinite hfin] at hn
    obtain hinf | ⟨hle, hmag⟩ := div_one_of_pow (nan := quietNaN (c.choices.nanDiv 0x3F800000#32 c.inScale)) hin hm
    · simp [fdiv, hinf, isFinite_infinity] at hfin
    · have : n = 298 - m := Nat.pow_right_injective (le_refl 2) (hn.symm.trans hmag)
      omega
  · rw [reciprocal_of_overflow hfin] at hn
    exact absurd hn (mag_greatest_ne_pow _ n)

/-- The sign of a value that is multiplied by both scale constants. -/
theorem sign_bne_scales (c : Config) (s : Bool) : ((s != sign c.inScale) != sign c.outScale) = s := by
  rw [c.outScale_spec.2.1]
  cases s <;> cases sign c.inScale <;> rfl

theorem roundTrip_of_isInf {x : F} (hx : isInf x) : c.fmul (c.fmul x c.inScale) c.outScale = x := by
  have hin := c.inScale_isFiniteNonzero
  have hout := c.outScale_spec.1
  rw [fmul, fmul, mul_of_isInf hx hin, mul_of_isInf (isInf_infinity _) hout, sign_infinity, sign_bne_scales]
  exact eq_infinity_of_isInf hx

theorem roundTrip_of_exact {x : F} {m n : Nat} (hx : isFinite x) (hm : mag c.inScale = 2 ^ m)
    (hn : mag c.outScale = 2 ^ n) (hdvd : 2 ^ 149 ∣ mag x * 2 ^ m)
    (hlt : mag x * 2 ^ m / 2 ^ 149 < 2 ^ 149 * 2 ^ 128) : c.fmul (c.fmul x c.inScale) c.outScale = x := by
  obtain ⟨y, hy, hsign, hmag⟩ := exists_exact_product (sign x != sign c.inScale) hdvd hlt
  have hback : mag y * 2 ^ n = mag x * 2 ^ 149 := by
    refine Nat.eq_of_mul_eq_mul_right (by positivity : 0 < 2 ^ 149) ?_
    calc mag y * 2 ^ n * 2 ^ 149 = mag x * 2 ^ m * 2 ^ n := by rw [hmag]; ring
      _ = mag x * 2 ^ 149 * 2 ^ 149 := by
        rw [mul_assoc, ← pow_add, scale_exponents_add hm hn, mul_assoc, ← pow_add]
  have hfirst : c.fmul x c.inScale = y := mul_of_exact hx c.inScale_isFinite hy hsign (by rw [hm, hmag])
  rw [hfirst]
  exact mul_of_exact hy c.outScale_isFinite hx (by rw [hsign, sign_bne_scales]) (by rw [hn, hback])

/-! The round trip within the tolerance. -/

/-- Four inequalities multiplied, and a common factor cancelled. -/
theorem le_of_mul_chain {a₁ a₂ a₃ a₄ b₁ b₂ b₃ b₄ x y k : Int} (ha₁ : 0 ≤ a₁) (ha₂ : 0 ≤ a₂) (ha₃ : 0 ≤ a₃) (ha₄ : 0 ≤ a₄)
    (h₁ : a₁ ≤ b₁) (h₂ : a₂ ≤ b₂) (h₃ : a₃ ≤ b₃) (h₄ : a₄ ≤ b₄) (hk : 0 < k)
    (ha : a₁ * a₂ * (a₃ * a₄) = x * k) (hb : b₁ * b₂ * (b₃ * b₄) = y * k) : x ≤ y := by
  refine le_of_mul_le_mul_right ?_ hk
  rw [← ha, ← hb]
  have h₁₂ : a₁ * a₂ ≤ b₁ * b₂ := mul_le_mul h₁ h₂ ha₂ (ha₁.trans h₁)
  have h₃₄ : a₃ * a₄ ≤ b₃ * b₄ := mul_le_mul h₃ h₄ ha₄ (ha₃.trans h₃)
  exact mul_le_mul h₁₂ h₃₄ (mul_nonneg ha₃ ha₄) ((mul_nonneg ha₁ ha₂).trans h₁₂)

/-- The relative errors of the two products, of the reciprocal and of `OUT_SCALE` add up to the error of the round trip: with
`u` for 1.0, `y` is near `x · i`, `z` near `y · o`, `r` near `1 / i` and `o` near `r`. -/
theorem roundTrip_error {x i r o y z u t : Int} (hx : 0 ≤ x) (hi : 0 < i) (hr : 0 < r) (ho : 0 < o) (hy : 0 < y) (hz : 0 ≤ z)
    (hu : 0 < u) (ht : 0 ≤ t) (hfirst : |y * u - x * i| * 2 ^ 24 ≤ y * u) (hsecond : |z * u - y * o| * 2 ^ 24 ≤ z * u)
    (hrecip : |r * i - u * u| * 2 ^ 25 ≤ 3 * (u * u)) (hout : |o - r| * 2 ^ 23 ≤ t * r) :
    |z - x| * 2 ^ 22 ≤ (t + 1) * x := by
  have hxt : 0 ≤ x * t := mul_nonneg hx ht
  have hk : 0 < u * u * (y * (o * (r * i))) := by positivity
  have hupper : z * ((2 ^ 24 - 1) * (2 ^ 24 - 1) * (2 ^ 23 * 2 ^ 25)) ≤
      x * (2 ^ 24 * 2 ^ 24 * ((2 ^ 23 + t) * (2 ^ 25 + 3))) := by
    refine le_of_mul_chain (a₁ := z * u * (2 ^ 24 - 1)) (a₂ := y * u * (2 ^ 24 - 1)) (a₃ := o * 2 ^ 23)
      (a₄ := r * i * 2 ^ 25) (b₁ := y * o * 2 ^ 24) (b₂ := x * i * 2 ^ 24) (b₃ := r * (2 ^ 23 + t))
      (b₄ := u * u * (2 ^ 25 + 3)) (by positivity) (by positivity) (by positivity) (by positivity) ?_ ?_ ?_ ?_ hk
      (by ring) (by ring)
    · linarith [le_abs_self (z * u - y * o)]
    · linarith [le_abs_self (y * u - x * i)]
    · linarith [le_abs_self (o - r)]
    · linarith [le_abs_self (r * i - u * u)]
  have hlower : t ≤ 2 ^ 23 → x * (2 ^ 24 * 2 ^ 24 * ((2 ^ 23 - t) * (2 ^ 25 - 3))) ≤
      z * ((2 ^ 24 + 1) * (2 ^ 24 + 1) * (2 ^ 23 * 2 ^ 25)) := by
    intro hle
    have ht' : 0 ≤ 2 ^ 23 - t := sub_nonneg.mpr hle
    refine le_of_mul_chain (b₁ := z * u * (2 ^ 24 + 1)) (b₂ := y * u * (2 ^ 24 + 1)) (b₃ := o * 2 ^ 23)
      (b₄ := r * i * 2 ^ 25) (a₁ := y * o * 2 ^ 24) (a₂ := x * i * 2 ^ 24) (a₃ := r * (2 ^ 23 - t))
      (a₄ := u * u * (2 ^ 25 - 3)) (by positivity) (by positivity) (by positivity) (by positivity) ?_ ?_ ?_ ?_ hk
      (by ring) (by ring)
    · linarith [neg_abs_le (z * u - y * o)]
    · linarith [neg_abs_le (y * u - x * i)]
    · linarith [neg_abs_le (o - r)]
    · linarith [neg_abs_le (r * i - u * u)]
  obtain ⟨habs, -⟩ | ⟨habs, -⟩ := abs_cases (z - x) <;> rw [habs]
  · linarith
  · obtain hle | hgt := le_or_gt t (2 ^ 22)
    · have := hlower (by omega)
      linarith
    · have : 2 ^ 22 * x ≤ t * x := Int.mul_le_mul_of_nonneg_right hgt.le hx
      linarith

/-- `reciprocal` is the finite value nearest to the reciprocal, with the greatest finite magnitudes written as patterns. -/
theorem nearest_eq_reciprocal (c : Config) (x : F) :
    (if isFinite (c.fdiv 0x3F800000#32 x) then c.fdiv 0x3F800000#32 x
      else if sign x then 0xFF7FFFFF#32 else 0x7F7FFFFF#32) = c.reciprocal x := by
  have hmax (s : Bool) : (if s then 0xFF7FFFFF#32 else 0x7F7FFFFF#32 : F) = withSign s 0x7F7FFFFF := by
    cases s <;> rfl
  rw [hmax]
  rfl

/-- A round trip keeps the sign, so it moves a value by the difference of magnitudes. -/
theorem sign_roundTrip {x : F} (hx : isFinite x) (hy : isFinite (c.fmul x c.inScale)) :
    sign (c.fmul (c.fmul x c.inScale) c.outScale) = sign x := by
  rw [fmul, sign_mul hy c.outScale_isFinite, fmul, sign_mul hx c.inScale_isFinite, sign_bne_scales]

/-- `OUT_SCALE` against a normal reciprocal: the tolerance as a fraction of the magnitude. -/
theorem outScale_error (c : Config) (hlo : 1 ≤ expField (c.fdiv 0x3F800000#32 c.inScale))
    (hhi : expField (c.fdiv 0x3F800000#32 c.inScale) ≤ 254) :
    |(mag c.outScale : Int) - mag (c.fdiv 0x3F800000#32 c.inScale)| * 2 ^ 23 ≤
      c.choices.scaleTolerance * mag (c.fdiv 0x3F800000#32 c.inScale) := by
  obtain ⟨-, hsign, htol, -⟩ := c.outScale_spec
  rw [reciprocal_of_isFinite (isFinite_iff.mpr hhi)] at htol
  have hsame : sign c.outScale = sign (c.fdiv 0x3F800000#32 c.inScale) :=
    hsign.trans (sign_div_one c.inScale_isFiniteNonzero).symm
  have hulp := mag_ge_of_normal hlo
  rw [natAbs_units_sub hsame, ulp_eq] at htol
  zify at htol hulp
  calc |(mag c.outScale : Int) - mag (c.fdiv 0x3F800000#32 c.inScale)| * 2 ^ 23
      ≤ c.choices.scaleTolerance * 2 ^ scale (c.fdiv 0x3F800000#32 c.inScale) * 2 ^ 23 :=
        Int.mul_le_mul_of_nonneg_right htol (by positivity)
    _ = c.choices.scaleTolerance * (2 ^ 23 * 2 ^ scale (c.fdiv 0x3F800000#32 c.inScale)) := by ring
    _ ≤ c.choices.scaleTolerance * mag (c.fdiv 0x3F800000#32 c.inScale) :=
        Int.mul_le_mul_of_nonneg_left hulp (Int.natCast_nonneg _)

/-- The round trip of a voltage whose products, like the reciprocal, are normal. -/
theorem roundTrip_mag_error {x : F} (hx : isFinite x) (hrlo : 1 ≤ expField (c.fdiv 0x3F800000#32 c.inScale))
    (hrhi : expField (c.fdiv 0x3F800000#32 c.inScale) ≤ 254) (hylo : 1 ≤ expField (c.fmul x c.inScale))
    (hyhi : expField (c.fmul x c.inScale) ≤ 254) (hzlo : 1 ≤ expField (c.fmul (c.fmul x c.inScale) c.outScale))
    (hzhi : expField (c.fmul (c.fmul x c.inScale) c.outScale) ≤ 254) :
    |(mag (c.fmul (c.fmul x c.inScale) c.outScale) : Int) - mag x| * 2 ^ 22 ≤
      (c.choices.scaleTolerance + 1) * mag x := by
  obtain ⟨hin, hinne⟩ := isFiniteNonzero_iff.mp c.inScale_isFiniteNonzero
  obtain ⟨hout, houtne⟩ := isFiniteNonzero_iff.mp c.outScale_spec.1
  have hfirst := mul_error hx hin hylo hyhi
  have hsecond := mul_error (isFinite_iff.mpr hyhi) hout hzlo hzhi
  have hrecip := div_one_error c.inScale_isFiniteNonzero hrlo hrhi
  simp only [Nat.cast_mul, Nat.cast_pow, Nat.cast_ofNat] at hfirst hsecond hrecip
  rw [show (2 : Int) ^ 298 = 2 ^ 149 * 2 ^ 149 by rw [← pow_add]] at hrecip
  have hpos {v : F} (h : 1 ≤ expField v) : (0 : Int) < mag v :=
    mod_cast (by positivity : 0 < 2 ^ 23 * 2 ^ scale v).trans_le (mag_ge_of_normal h)
  exact roundTrip_error (Int.natCast_nonneg _) (mod_cast Nat.pos_of_ne_zero hinne) (hpos hrlo)
    (mod_cast Nat.pos_of_ne_zero houtne) (hpos hylo) (Int.natCast_nonneg _) (by positivity) (Int.natCast_nonneg _)
    hfirst hsecond hrecip (c.outScale_error hrlo hrhi)

/-- A zero comes back as a zero. -/
theorem roundTrip_of_isZero {x : F} (hx : isZero x) :
    isZero (c.fmul x c.inScale) ∧ isZero (c.fmul (c.fmul x c.inScale) c.outScale) := by
  have hy : isZero (c.fmul x c.inScale) := mul_of_isZero hx c.inScale_isFinite
  exact ⟨hy, mul_of_isZero hy c.outScale_isFinite⟩

end Sys2Proof.Config

/-! The delay buffers. -/

namespace Sys2Proof.Machine

/-- What an element reads after a write: the element written, another element of its lane, another lane (R18, R72). -/
theorem delayRead_delayWrite {a b n : Nat} (gs : GroupState a b n) (l l' : LaneIx) (i i' : Fin n) (v : F) :
    delayRead (delayWrite gs l i v) l' i' = if l' = l ∧ i' = i then v else delayRead gs l' i' := by
  unfold delayRead delayWrite
  by_cases hl : l' = l
  · subst hl
    simp [Vector.getElem_set, Fin.ext_iff, eq_comm]
  · have hl' : l.val ≠ l'.val := fun e => hl (Fin.ext e.symm)
    simp [hl, Vector.getElem_set_ne, hl']

end Sys2Proof.Machine

/-! The obligations on the delay buffers and on the arithmetic. -/

namespace Sys2Proof

open Sys2Proof.Float32 Sys2Proof.Machine

/-- Settles O32: `delayRead_delayWrite`, and the write is an update of the delay buffers alone. -/
theorem delayBufferReadsAsWritten : Obligations.DelayBufferReadsAsWritten := by
  unfold Obligations.DelayBufferReadsAsWritten
  intro nReg nCoef n gs l l' i i' v
  exact ⟨delayRead_delayWrite gs l l' i i' v, rfl⟩

/-- Settles O58: the product is a value that the format holds, so it is exact. -/
theorem multiplyByPowerOfTwoIsExact : Obligations.MultiplyByPowerOfTwoIsExact := by
  unfold Obligations.MultiplyByPowerOfTwoIsExact
  intro nan x p hp hplo hphi hxlo hxhi hlo hhi
  have hfrac := fracField_lt x
  obtain ⟨k, hk⟩ : ∃ k, expField x + expField p = k + 128 := Nat.exists_eq_add_of_le' hlo
  have hpattern : (expField x + expField p - 127) * 2 ^ 23 + fracField x = k * 2 ^ 23 + (2 ^ 23 + fracField x) := by
    omega
  have hlt : k * 2 ^ 23 + (2 ^ 23 + fracField x) < 2 ^ 31 := by omega
  have hscale : scale x + (23 + scale p) = k + 149 := by
    have := scale_add_one hxlo
    have := scale_add_one hplo
    omega
  rw [hpattern]
  refine mul_of_exact (isFinite_iff.mpr hxhi) (isFinite_iff.mpr hphi) ?_ (sign_withSign hlt) ?_
  · rw [isFinite_iff, expField_withSign hlt]
    omega
  · rw [mag_withSign (by omega) (.inr (by omega)) hlt, mag, mag, mant_of_normal hxlo, mant_of_normal hplo, hp, Nat.add_zero,
      ← pow_add, mul_assoc, ← pow_add, hscale, pow_add, mul_assoc]

/-- Settles O59: the relative errors of the two products, of the reciprocal and of the tolerance add up (`roundTrip_error`). -/
theorem conversionRoundTripIsWithinTolerance : Obligations.ConversionRoundTripIsWithinTolerance := by
  unfold Obligations.ConversionRoundTripIsWithinTolerance
  intro c t r near
  have hnear : near = c.reciprocal c.inScale := Config.nearest_eq_reciprocal c c.inScale
  obtain ⟨hout, hsign, htol, -⟩ := c.outScale_spec
  refine ⟨⟨c.inScale_isFiniteNonzero, hout, hsign, hnear ▸ htol⟩, ?_⟩
  intro hrlo hrhi x hx y z hcase
  obtain hzero | ⟨⟨hylo, hyhi⟩, hzlo, hzhi⟩ := hcase
  · obtain ⟨hy, hz⟩ := Config.roundTrip_of_isZero (c := c) hzero
    rw [units_of_isZero hz, units_of_isZero hzero]
    simp
  · rw [natAbs_units_sub (Config.sign_roundTrip hx (isFinite_iff.mpr hyhi)), natAbs_units]
    zify
    exact Config.roundTrip_mag_error hx hrlo hrhi hylo hyhi hzlo hzhi

/-- Settles O60: the first product and its way back are values that the format holds, so both are exact. -/
theorem conversionRoundTripIsExact : Obligations.ConversionRoundTripIsExact := by
  unfold Obligations.ConversionRoundTripIsExact
  intro c m n hm hn
  rw [natAbs_units] at hm hn
  refine ⟨Config.scale_exponents_add hm hn, fun x => ⟨Config.roundTrip_of_isInf, fun hx hdvd hlt => ?_⟩⟩
  rw [natAbs_units] at hdvd hlt
  exact Config.roundTrip_of_exact hx hm hn hdvd hlt

end Sys2Proof

/-! PROOFS. The reset state, component by component (R55). -/

namespace Sys2Proof.Config

/-- `FS0` is finite and greater than zero (R10). -/
theorem fs0_isFinitePos (c : Config) : Float32.isFinitePos c.fs0 := by
  unfold fs0
  split
  · assumption
  · decide

end Sys2Proof.Config

namespace Sys2Proof.Machine.Block

theorem entry_of_noVoices {c : Config} {b : Block c} {sd : Side} (h : b.alloc.get sd = noVoices) (v : Channel) :
    b.entry sd v = none := by
  rw [entry, h, noVoices_entry]

variable (c : Config)

@[simp] theorem reset_groups : (reset c).groups = Vector.replicate 8 (resetGroup c) := rfl
@[simp] theorem reset_snap : (reset c).snap = Vector.replicate 8 (Vector.replicate _ zero4) := rfl
@[simp] theorem reset_alloc (sd : Side) : (reset c).alloc.get sd = noVoices := PerSide.get_both _ sd
@[simp] theorem reset_nVoices : (reset c).nVoices = 0 := rfl
@[simp] theorem reset_nSimd : (reset c).nSimd = 0 := rfl
@[simp] theorem reset_lastPoly (sd : Side) : (reset c).lastPoly.get sd = -2 := PerSide.get_both _ sd
@[simp] theorem reset_curType : (reset c).curType = -1 := rfl
@[simp] theorem reset_curSub : (reset c).curSub = -1 := rfl
@[simp] theorem reset_fn : (reset c).fn = none := rfl
@[simp] theorem reset_defsub : (reset c).defsub = Vector.replicate _ 0 := rfl
@[simp] theorem reset_fs : (reset c).fs = Vector.replicate 8 c.fs0 := rfl
@[simp] theorem reset_pos : (reset c).pos = c.blockSize := rfl
@[simp] theorem reset_poly (sd : Side) : (reset c).poly.get sd = -1 := PerSide.get_both _ sd
@[simp] theorem reset_vin (sd : Side) : (reset c).vin.get sd = Vector.replicate 16 zeroF := PerSide.get_both _ sd
@[simp] theorem reset_param : (reset c).param = ⟨Vector.replicate 5 zeroF, 0, 0⟩ := rfl
@[simp] theorem reset_mods : (reset c).mods = Vector.replicate 5 (Vector.replicate 4 zeroF) := rfl
@[simp] theorem reset_vout (sd : Side) : (reset c).vout.get sd = Vector.replicate 16 zeroF := PerSide.get_both _ sd
@[simp] theorem reset_outch (sd : Side) : (reset c).outch.get sd = 1 := PerSide.get_both _ sd

/-- The filter units, delay buffers and snapshot caches of the reset block hold zeroes only. -/
theorem reset_filterStore (g : GroupIx) :
    (∀ (r : Fin c.nReg) (l : LaneIx), (reset c).groups[g].reg[r][l] = zeroF ∧ (reset c).snap[g][r][l] = zeroF) ∧
    (∀ (i : Fin c.nCoef) (l : LaneIx),
      (reset c).groups[g].coef[i][l] = zeroF ∧ (reset c).groups[g].ramp[i][l] = zeroF) ∧
    (∀ l : LaneIx, (reset c).groups[g].wp[l].val = 0) ∧ (reset c).groups[g].active = 0 ∧
    (∀ (l : LaneIx) (i : Fin c.delayLen), (reset c).groups[g].db[l][i] = zeroF) := by
  have hg : (reset c).groups[g] = resetGroup c := by simp
  rw [hg]
  simp [resetGroup]

/-- The block after reset meets the table of R55. -/
theorem reset_resetTable : ResetTable (reset c) := by
  choose hreg hcoef hwp hactive hdb using reset_filterStore c
  refine ⟨fun g r l => (hreg g r l).1, hcoef, hwp, hactive, hdb, fun g r l => (hreg g r l).2,
    fun sd v => entry_of_noVoices (reset_alloc c sd) v, ?_⟩
  simp

/-- Nothing is latched in the block after reset. -/
theorem reset_fresh : (reset c).Fresh where
  lastPoly := reset_lastPoly c
  alloc := reset_alloc c
  nVoices := rfl
  nSimd := rfl
  curType := rfl
  curSub := rfl
  fn := rfl
  pos := rfl

theorem reset_inv : (reset c).Inv where
  phase := .inl (reset_fresh c)
  poly := by simp [PolyLegal]
  fs := ⟨c.fs0, c.fs0_isFinitePos, rfl⟩
  outch := by simp
  selectors := by simp
  defsub := by simp

end Sys2Proof.Machine.Block

/-! PROOFS. What a tick leaves unchanged, field by field (R221, R223). -/

namespace Sys2Proof.Machine.Block

variable {c : Config} (b : Block c)

@[simp] theorem sample_snap : b.sample.snap = b.snap := by rw [sample_eq]
@[simp] theorem sample_alloc : b.sample.alloc = b.alloc := by rw [sample_eq]
@[simp] theorem sample_nVoices : b.sample.nVoices = b.nVoices := by rw [sample_eq]
@[simp] theorem sample_nSimd : b.sample.nSimd = b.nSimd := by rw [sample_eq]
@[simp] theorem sample_lastPoly : b.sample.lastPoly = b.lastPoly := by rw [sample_eq]
@[simp] theorem sample_curType : b.sample.curType = b.curType := by rw [sample_eq]
@[simp] theorem sample_curSub : b.sample.curSub = b.curSub := by rw [sample_eq]
@[simp] theorem sample_fn : b.sample.fn = b.fn := by rw [sample_eq]
@[simp] theorem sample_defsub : b.sample.defsub = b.defsub := by rw [sample_eq]
@[simp] theorem sample_fs : b.sample.fs = b.fs := by rw [sample_eq]
@[simp] theorem sample_pos : b.sample.pos = b.pos + 1 := by rw [sample_eq]
@[simp] theorem sample_poly : b.sample.poly = b.poly := by rw [sample_eq]
@[simp] theorem sample_vin : b.sample.vin = b.vin := by rw [sample_eq]
@[simp] theorem sample_param : b.sample.param = b.param := by rw [sample_eq]
@[simp] theorem sample_mods : b.sample.mods = b.mods := by rw [sample_eq]
@[simp] theorem sample_outch (sd : Side) : b.sample.outch.get sd = (max (b.lastPoly.get sd) 1).toNat := by
  rw [sample_eq, PerSide.get_build]

/-- The two cases of a tick (R221, R222). -/
theorem tick_cases :
    (c.blockSize ≤ b.pos ∧ b.tick = b.boundary.sample) ∨ (b.pos < c.blockSize ∧ b.tick = b.sample) := by
  rw [tick_eq]
  by_cases h : c.blockSize ≤ b.pos
  · exact .inl ⟨h, if_pos (decide_eq_true h)⟩
  · exact .inr ⟨Nat.lt_of_not_le h, if_neg (by simpa [atBoundary] using h)⟩

@[simp] theorem tick_poly : b.tick.poly = b.poly := by
  rcases b.tick_cases with ⟨-, h⟩ | ⟨-, h⟩ <;> simp [h]
@[simp] theorem tick_vin : b.tick.vin = b.vin := by
  rcases b.tick_cases with ⟨-, h⟩ | ⟨-, h⟩ <;> simp [h]
@[simp] theorem tick_param : b.tick.param = b.param := by
  rcases b.tick_cases with ⟨-, h⟩ | ⟨-, h⟩ <;> simp [h]
@[simp] theorem tick_mods : b.tick.mods = b.mods := by
  rcases b.tick_cases with ⟨-, h⟩ | ⟨-, h⟩ <;> simp [h]
@[simp] theorem tick_fs : b.tick.fs = b.fs := by
  rcases b.tick_cases with ⟨-, h⟩ | ⟨-, h⟩ <;> simp [h]

/-- A tick writes the Default Subtype Memory at a boundary only (R202, R222). -/
theorem tick_defsub :
    b.tick.defsub = if c.blockSize ≤ b.pos then b.defsub.set b.selectedType b.selectedSub else b.defsub := by
  rcases b.tick_cases with ⟨hpos, h⟩ | ⟨hpos, h⟩
  · simp [h, hpos]
  · simp [h, Nat.not_le.mpr hpos]

/-- A tick writes the channel counts from the polyphony that it leaves latched (R233). -/
theorem tick_outch (sd : Side) : b.tick.outch.get sd = (max (b.tick.lastPoly.get sd) 1).toNat := by
  rcases b.tick_cases with ⟨-, h⟩ | ⟨-, h⟩ <;> simp [h]

end Sys2Proof.Machine.Block

/-! PROOFS. The Allocation Table is what the allocator makes of the latched polyphony (R33). -/

namespace Sys2Proof.Machine.Block

variable {c : Config} {b : Block c}

/-- The table and both counts are what the allocator makes of the latched polyphony (R33 (d)). -/
structure Allocated (b : Block c) : Prop where
  alloc : b.alloc = allocTable (b.lastPoly.get .left) (b.lastPoly.get .right)
  nVoices : b.nVoices = allocVoices (b.lastPoly.get .left) (b.lastPoly.get .right)
  nSimd : b.nSimd = ceilDiv b.nVoices 4

theorem Latched.allocated (h : b.Latched) : b.Allocated := ⟨h.alloc, h.nVoices, h.nSimd⟩

/-- The group count is the number of groups that the slots below the voice count lie in (R33 (a)). -/
theorem Allocated.nSimd_eq (h : b.Allocated) : b.nSimd = (b.nVoices + 3) / 4 := h.nSimd

/-- The voice that the packing of two polyphony counts puts on a slot, if any: the voice of the slot's number on the one
connected side (R143), or that of half the number, left on even slots and right on odd ones (R144). -/
def slotOwner (pl pr : Int) (q : Slot) : Side × Nat :=
  if pr = -1 then (.left, q.val)
  else if pl = -1 then (.right, q.val)
  else (if q.val % 2 = 0 then .left else .right, q.val / 2)

/-- A voice that holds a slot is the slot's owner. -/
theorem slotOwner_of_entry {pl pr : Int} {sd : Side} {v : Channel} {q : Slot}
    (h : ((allocTable pl pr).get sd)[v] = some q) : slotOwner pl pr q = (sd, v.val) := by
  unfold slotOwner
  rcases allocTable_some h with ⟨-, hr, rfl, -, hq⟩ | ⟨hl, hr, rfl, -, hq⟩ | ⟨hl, hr, -, ⟨rfl, hq⟩ | ⟨rfl, hq⟩⟩
  · rw [if_pos hr, hq]
  · rw [if_neg hr, if_pos hl, hq]
  · rw [if_neg hr, if_neg hl, if_pos (by omega), hq, Nat.mul_div_cancel_left _ two_pos]
  · rw [if_neg hr, if_neg hl, if_neg (by omega), hq, show (2 * v.val + 1) / 2 = v.val by omega]

/-- An assigned slot is below the voice count of the packing. -/
theorem slot_lt_allocVoices {pl pr : Int} {sd : Side} {v : Channel} {q : Slot}
    (h : ((allocTable pl pr).get sd)[v] = some q) : q.val < allocVoices pl pr := by
  unfold allocVoices
  rcases allocTable_some h with ⟨hl, hr, -, hlt, hq⟩ | ⟨hl, hr, -, hlt, hq⟩ | ⟨hl, hr, hlt, ⟨-, hq⟩ | ⟨-, hq⟩⟩ <;>
    simp only [hl, hr, and_true, and_false, if_true, if_false] <;> omega

/-- No slot is assigned to two voices (R33 (b)). -/
theorem Allocated.entry_inj (h : b.Allocated) {sd sd' : Side} {v v' : Channel} {q : Slot}
    (hv : b.entry sd v = some q) (hv' : b.entry sd' v' = some q) : sd = sd' ∧ v = v' := by
  rw [entry, h.alloc] at hv hv'
  have howner : (sd, v.val) = (sd', v'.val) := (slotOwner_of_entry hv).symm.trans (slotOwner_of_entry hv')
  obtain ⟨hsd, hval⟩ := Prod.mk.inj howner
  exact ⟨hsd, Fin.ext hval⟩

/-- Every assigned slot is below the voice count (R33 (c)). -/
theorem Allocated.entry_lt (h : b.Allocated) {sd : Side} {v : Channel} {q : Slot} (hv : b.entry sd v = some q) :
    q.val < b.nVoices := by
  rw [entry, h.alloc] at hv
  rw [h.nVoices]
  exact slot_lt_allocVoices hv

/-- The polyphony step leaves the table that belongs to the latched polyphony, where an unchanged polyphony had it
already (R224). -/
theorem checkPoly_allocated (h : ¬ b.PolyChanged → b.Allocated) : b.checkPoly.Allocated := by
  rcases b.checkPoly_cases with ⟨-, heq⟩ | ⟨hsame, heq⟩
  · rw [heq]
    exact ⟨by simp, by simp, by simp⟩
  · rw [heq]
    exact h hsame

/-- So does the whole boundary: the dispatcher's steps and the scheduler leave the table (R166, R209). -/
theorem boundary_allocated (h : ¬ b.PolyChanged → b.Allocated) : b.boundary.Allocated := by
  have hselchk : ¬ b.selchk.PolyChanged → b.selchk.Allocated := by
    intro hsame
    obtain ⟨halloc, hvoices, hsimd⟩ := h (by simpa [PolyChanged] using hsame)
    exact ⟨by simpa using halloc, by simpa using hvoices, by simpa using hsimd⟩
  obtain ⟨halloc, hvoices, hsimd⟩ := checkPoly_allocated hselchk
  rw [boundary_eq]
  exact ⟨halloc, hvoices, hsimd⟩

/-- A block that was never at a boundary sees a change of polyphony there: no port holds -2 (R32, R42). -/
theorem Inv.allocated_of_not_polyChanged (h : b.Inv) (hsame : ¬ b.PolyChanged) : b.Allocated := by
  rcases h.phase with hfresh | hlatched
  · have hlast := hfresh.lastPoly .left
    obtain ⟨hlow, -⟩ := h.poly .left
    exact absurd (.inl (by omega)) hsame
  · exact hlatched.allocated

/-- The voice count is at most the number of slots (R33). -/
theorem Latched.nVoices_le (h : b.Latched) : b.nVoices ≤ 32 := by
  rw [h.nVoices]
  exact allocVoices_le (h.lastPoly .left).2 (h.lastPoly .right).2

end Sys2Proof.Machine.Block

/-! PROOFS. Every command keeps the invariant. -/

namespace Sys2Proof.Machine.Block

variable {c : Config} {b b' : Block c}

/-- The clamped subtype is no larger than the slot's value, or zero (R201). -/
theorem selectedSub_lt_of_subtype_lt (h : b.param.subtype < 2 ^ 31) : b.selectedSub < 2 ^ 31 := by
  unfold selectedSub clamp
  omega

/-- The boundary tick latches everything (R202, R203, R224). -/
theorem Inv.boundary_sample_latched (h : b.Inv) : b.boundary.sample.Latched := by
  obtain ⟨halloc, hvoices, hsimd⟩ := boundary_allocated h.allocated_of_not_polyChanged
  exact {
    lastPoly := by simpa using h.poly
    alloc := by simpa using halloc
    nVoices := by simpa using hvoices
    nSimd := by simpa using hsimd
    curType := by
      have hlt := b.selectedType.isLt
      rw [sample_curType, boundary_curType]
      omega
    curSub := by simpa using b.selectedSub_lt
    fn := by rw [sample_fn, boundary_eq]; simpa using b.selchk_fn
    pos := by simp }

/-- A tick inside a block keeps everything latched. -/
theorem Latched.sample (h : b.Latched) (hpos : b.pos < c.blockSize) : b.sample.Latched where
  lastPoly := by simpa using h.lastPoly
  alloc := by simpa using h.alloc
  nVoices := by simpa using h.nVoices
  nSimd := by simpa using h.nSimd
  curType := by simpa using h.curType
  curSub := by simpa using h.curSub
  fn := by simpa using h.fn
  pos := by rw [sample_pos]; omega

/-- After every tick everything is latched: the first one after reset is a boundary tick. -/
theorem Inv.tick_latched (h : b.Inv) : b.tick.Latched := by
  rcases b.tick_cases with ⟨-, htick⟩ | ⟨hpos, htick⟩
  · rw [htick]
    exact h.boundary_sample_latched
  · rw [htick]
    rcases h.phase with hfresh | hlatched
    · exact absurd hfresh.pos hpos.ne
    · exact hlatched.sample hpos

theorem Inv.tick (h : b.Inv) : b.tick.Inv where
  phase := .inr h.tick_latched
  poly := by simpa using h.poly
  fs := by simpa using h.fs
  outch := by
    intro sd
    rw [tick_outch]
    omega
  selectors := by simpa using h.selectors
  defsub := by
    intro t ht
    have hsub := selectedSub_lt_of_subtype_lt h.selectors.2.2
    have hold := h.defsub t ht
    rw [tick_defsub]
    split
    · rw [Vector.getElem_set]
      split <;> assumption
    · exact hold

/-- Two blocks that differ at most in what a write command or SETRATE can write (R254 to R259). -/
def SameBesidesPorts (b b' : Block c) : Prop :=
  b' = { b with
    poly := b'.poly
    vin := b'.vin
    param := b'.param
    mods := b'.mods
    fs := b'.fs
    defsub := b'.defsub }

/-- No write command touches what a boundary latches. -/
theorem SameBesidesPorts.phase (h : b.SameBesidesPorts b') (hphase : b.Fresh ∨ b.Latched) : b'.Fresh ∨ b'.Latched := by
  rw [h]
  rcases hphase with hf | hl
  · exact .inl { hf with }
  · exact .inr { hl with }

/-- The invariant after a write is what it says of the components written. -/
theorem Inv.of_sameBesidesPorts (hinv : b.Inv) (h : b.SameBesidesPorts b') (poly : ∀ sd, PolyLegal (b'.poly.get sd))
    (fs : ∃ rate, Float32.isFinitePos rate ∧ b'.fs = Vector.replicate 8 rate)
    (selectors : (-2 ^ 31 ≤ b'.param.type ∧ b'.param.type < 2 ^ 31) ∧
      (-2 ^ 31 ≤ b'.param.subtype ∧ b'.param.subtype < 2 ^ 31))
    (defsub : ∀ (t : Nat) (ht : t < c.nTypes), b'.defsub[t] < 2 ^ 31) : b'.Inv where
  phase := h.phase hinv.phase
  poly := poly
  fs := fs
  outch := by rw [h]; exact hinv.outch
  selectors := selectors
  defsub := defsub

theorem Inv.setRate (h : b.Inv) {rate : F} (hrate : Float32.isFinitePos rate) : (b.setRate rate).Inv :=
  h.of_sameBesidesPorts rfl h.poly ⟨rate, hrate, rfl⟩ h.selectors h.defsub

theorem Inv.write_poly (h : b.Inv) (sd : Side) {count : Int} (hcount : PolyLegal count) :
    ({ b with poly := b.poly.set sd count } : Block c).Inv := by
  refine h.of_sameBesidesPorts rfl (fun sd' => ?_) h.fs h.selectors h.defsub
  rw [PerSide.get_set]
  split
  · exact hcount
  · exact h.poly sd'

theorem Inv.write_vin (h : b.Inv) (vin : PerSide (Vector F 16)) : ({ b with vin := vin } : Block c).Inv :=
  h.of_sameBesidesPorts rfl h.poly h.fs h.selectors h.defsub

theorem Inv.write_mods (h : b.Inv) (mods : ModTable) : ({ b with mods := mods } : Block c).Inv :=
  h.of_sameBesidesPorts rfl h.poly h.fs h.selectors h.defsub

/-- A selector slot takes the two's-complement reading of a 32-bit pattern (R257). -/
theorem Inv.write_param (h : b.Inv) (slot : ParamSlot) (data : BitVec 32) :
    ({ b with param := writeSlot b.param slot data } : Block c).Inv := by
  refine h.of_sameBesidesPorts rfl h.poly h.fs ?_ h.defsub
  have hlow := data.le_toInt
  have hhigh := data.toInt_lt
  obtain ⟨htype, hsub⟩ := h.selectors
  cases slot with
  | type => exact ⟨⟨hlow, hhigh⟩, hsub⟩
  | subtype => exact ⟨htype, hlow, hhigh⟩
  | _ => exact h.selectors

theorem Inv.write_defsub (h : b.Inv) (t : Nat) {sub : Nat} (hsub : sub < 2 ^ 31) :
    ({ b with defsub := b.defsub.setIfInBounds t sub } : Block c).Inv := by
  refine h.of_sameBesidesPorts rfl h.poly h.fs h.selectors fun t' ht' => ?_
  rw [Vector.getElem_setIfInBounds]
  split
  · exact hsub
  · exact h.defsub t' ht'

end Sys2Proof.Machine.Block

namespace Sys2Proof.Machine

/-- The rate of an accepted SETRATE (R128). -/
theorem isFinitePos_of_setrate_checkFor {n : Nat} {rate : F} (h : (Instr.setrate rate).checkFor n = none) :
    Float32.isFinitePos rate := by
  simpa [Instr.checkFor] using h

/-- The count of an accepted SETPOLY (R128). -/
theorem polyLegal_of_setpoly_checkFor {n : Nat} {sd : Side} {count : Int}
    (h : (Instr.setpoly sd count).checkFor n = none) : PolyLegal count := by
  simpa [Instr.checkFor] using h

/-- The operands of an accepted WRDEF (R128). -/
theorem legal_of_wrdef_checkFor {n : Nat} {type : BitVec 8} {subtype : Int}
    (h : (Instr.wrdef type subtype).checkFor n = none) :
    type.toNat < n ∧ 0 ≤ subtype ∧ subtype ≤ 2147483647 := by
  rw [Instr.checkFor] at h
  split at h
  · exact ⟨‹_›, by simpa using h⟩
  · cases h

/-- Every command keeps the invariant. -/
theorem exec_keeps_inv {i : Instr} {s t : State} (hinv : s.Inv) (h : exec i s = .next t) : t.Inv := by
  cases i with
  | reset => obtain rfl := Host.Outcome.next.inj h; exact Block.reset_inv _
  | tick => obtain rfl := Host.Outcome.next.inj h; exact Block.Inv.tick hinv
  | setrate rate =>
    obtain ⟨hcheck, rfl⟩ := accept_next.mp h
    exact Block.Inv.setRate hinv (isFinitePos_of_setrate_checkFor hcheck)
  | setpoly sd count =>
    obtain ⟨hcheck, rfl⟩ := accept_next.mp h
    exact Block.Inv.write_poly hinv sd (polyLegal_of_setpoly_checkFor hcheck)
  | wrin sd v x => obtain rfl := Host.Outcome.next.inj h; exact Block.Inv.write_vin hinv _
  | wrparam slot data => obtain rfl := Host.Outcome.next.inj h; exact Block.Inv.write_param hinv slot data
  | wrmod p k x => obtain rfl := Host.Outcome.next.inj h; exact Block.Inv.write_mods hinv _
  | wrdef type subtype =>
    obtain ⟨hcheck, rfl⟩ := accept_next.mp h
    obtain ⟨-, hlow, hhigh⟩ := legal_of_wrdef_checkFor hcheck
    exact Block.Inv.write_defsub hinv _ (by omega)
  | rddef type => obtain ⟨-, rfl⟩ := accept_next.mp h; exact hinv
  | _ => obtain rfl := Host.Outcome.next.inj h; exact hinv

end Sys2Proof.Machine

/-! PROOFS. A tick reads neither the Default Subtype Memory nor the snapshot caches (R29, R208): two runs that start from
blocks alike in all else stay alike in all else. -/

namespace Sys2Proof.Machine.Block

variable {c : Config} {b b' : Block c}

/-- Two blocks that differ at most in the snapshot caches and the Default Subtype Memory. -/
def SameBesidesHidden (b b' : Block c) : Prop :=
  ∃ (sn : Vector (Vector Vec4 c.nReg) 8) (d : Vector Nat c.nTypes), b' = { b with snap := sn, defsub := d }

/-- SELCHK compares the selector slots with the latched pair (R201, R202). -/
theorem SameBesidesHidden.selchk (h : b.SameBesidesHidden b') : b.selchk.SameBesidesHidden b'.selchk := by
  obtain ⟨sn, d, rfl⟩ := h
  rcases b.selchk_cases with ⟨hpair, heq⟩ | ⟨hpair, heq⟩ <;>
    rcases selchk_cases { b with snap := sn, defsub := d } with ⟨hpair', heq'⟩ | ⟨hpair', heq'⟩
  · rw [heq, heq']
    exact ⟨_, _, rfl⟩
  · exact absurd hpair hpair'
  · exact absurd hpair' hpair
  · rw [heq, heq']
    exact ⟨_, _, rfl⟩

/-- The polyphony step compares the ports with the latched counts (R224). -/
theorem SameBesidesHidden.checkPoly (h : b.SameBesidesHidden b') : b.checkPoly.SameBesidesHidden b'.checkPoly := by
  obtain ⟨sn, d, rfl⟩ := h
  rcases b.checkPoly_cases with ⟨hpoly, heq⟩ | ⟨hpoly, heq⟩ <;>
    rcases checkPoly_cases { b with snap := sn, defsub := d } with ⟨hpoly', heq'⟩ | ⟨hpoly', heq'⟩
  · rw [heq, heq']
    exact ⟨_, _, rfl⟩
  · exact absurd hpoly hpoly'
  · exact absurd hpoly' hpoly
  · rw [heq, heq']
    exact ⟨_, _, rfl⟩

theorem SameBesidesHidden.groups (h : b.SameBesidesHidden b') : b'.groups = b.groups := by
  obtain ⟨sn, d, rfl⟩ := h
  rfl

theorem SameBesidesHidden.csched_groups (h : b.SameBesidesHidden b') : b'.csched.groups = b.csched.groups := by
  obtain ⟨sn, d, rfl⟩ := h
  refine Vector.ext fun g hg => ?_
  -- the scheduler's round of a group reads neither component
  exact (csched_group _ ⟨g, hg⟩).trans (csched_group b ⟨g, hg⟩).symm

/-- The snapshots after `CSCHED` are the register files before it, whatever the caches held (R187). -/
theorem SameBesidesHidden.csched_snaps (h : b.SameBesidesHidden b') : b'.csched.snap = b.csched.snap := by
  refine Vector.ext fun g hg => ?_
  have hreg : b'.groups[g].reg = b.groups[g].reg := by rw [h.groups]
  exact (b'.csched_snap ⟨g, hg⟩).trans (hreg.trans (b.csched_snap ⟨g, hg⟩).symm)

/-- A boundary leaves a difference in the Default Subtype Memory only. -/
theorem SameBesidesHidden.boundary (h : b.SameBesidesHidden b') :
    ∃ d, b'.boundary = { b.boundary with defsub := d } := by
  have hsteps := h.selchk.checkPoly
  obtain ⟨sn, d, heq⟩ := id hsteps
  refine ⟨d, ?_⟩
  rw [boundary_eq b, boundary_eq b', hsteps.csched_groups, hsteps.csched_snaps, heq]

/-- The per-sample path hands both components on (R221). -/
theorem sample_with_hidden (b : Block c) (sn : Vector (Vector Vec4 c.nReg) 8) (d : Vector Nat c.nTypes) :
    ({ b with snap := sn, defsub := d } : Block c).sample = { b.sample with snap := sn, defsub := d } := by
  have hcongr := sample_congr (b := b) (b' := { b with snap := sn, defsub := d }) rfl rfl rfl rfl rfl rfl
  rw [hcongr, sample_eq b]

/-- Two such blocks are at a boundary together (R222). -/
theorem SameBesidesHidden.tick_cases (h : b.SameBesidesHidden b') :
    (b.tick = b.boundary.sample ∧ b'.tick = b'.boundary.sample) ∨ (b.tick = b.sample ∧ b'.tick = b'.sample) := by
  have hpos : b'.pos = b.pos := by obtain ⟨sn, d, rfl⟩ := h; rfl
  rcases b.tick_cases with ⟨hb, htick⟩ | ⟨hb, htick⟩ <;> rcases b'.tick_cases with ⟨hb', htick'⟩ | ⟨hb', htick'⟩
  · exact .inl ⟨htick, htick'⟩
  · omega
  · omega
  · exact .inr ⟨htick, htick'⟩

theorem SameBesidesHidden.tick (h : b.SameBesidesHidden b') : b.tick.SameBesidesHidden b'.tick := by
  rcases h.tick_cases with ⟨htick, htick'⟩ | ⟨htick, htick'⟩
  · obtain ⟨d, hboundary⟩ := h.boundary
    rw [htick, htick', hboundary]
    exact ⟨_, d, sample_with_hidden b.boundary b.boundary.snap d⟩
  · obtain ⟨sn, d, rfl⟩ := h
    rw [htick, htick']
    exact ⟨sn, d, sample_with_hidden b sn d⟩

theorem SameBesidesHidden.tick_snap (h : b.SameBesidesHidden b') (hsnap : b'.snap = b.snap) :
    b'.tick.snap = b.tick.snap := by
  rcases h.tick_cases with ⟨htick, htick'⟩ | ⟨htick, htick'⟩
  · obtain ⟨d, hboundary⟩ := h.boundary
    rw [htick, htick', sample_snap, sample_snap, hboundary]
  · rw [htick, htick', sample_snap, sample_snap, hsnap]

theorem SameBesidesHidden.tick_defsub (h : b.SameBesidesHidden b') (hdefsub : b'.defsub = b.defsub) :
    b'.tick.defsub = b.tick.defsub := by
  obtain ⟨sn, d, rfl⟩ := h
  rw [Block.tick_defsub, Block.tick_defsub, hdefsub]
  rfl

end Sys2Proof.Machine.Block

/-! The obligations on the state. -/

namespace Sys2Proof

open Sys2Proof.Machine

/-- Settles O13: a step waits or runs one command, and every command keeps the invariant (`exec_keeps_inv`). -/
theorem stepKeepsInvariant : Obligations.StepKeepsInvariant := by
  unfold Obligations.StepKeepsInvariant
  intro s t hinv hstep
  rcases step_next_cases hstep with ⟨-, rfl⟩ | ⟨w, rest, i, -, -, hexec⟩
  · exact hinv
  · exact exec_keeps_inv (s := { s with cmds := rest }) hinv hexec

/-- Settles O14: before the first boundary the table is empty; after it the table is the allocator's, whose packings give
each slot one owner. -/
theorem allocatorInvariantsHold : Obligations.AllocatorInvariantsHold := by
  unfold Obligations.AllocatorInvariantsHold
  intro c b hinv
  rcases hinv.phase with hfresh | hlatched
  · have hnone : ∀ (sd : Side) (v : Channel) (q : Slot), b.entry sd v ≠ some q := by
      intro sd v q
      simp [Block.entry_of_noVoices (hfresh.alloc sd) v]
    have hsimd := hfresh.nSimd
    have hvoices := hfresh.nVoices
    exact ⟨by omega, by omega, by omega, fun sd _ v _ q hv => absurd hv (hnone sd v q),
      fun sd v q hv => absurd hv (hnone sd v q), fun hne => absurd ⟨hfresh.lastPoly .left, hfresh.lastPoly .right⟩ hne⟩
  · have halloc := hlatched.allocated
    have hsimd := halloc.nSimd_eq
    have hvoices := hlatched.nVoices_le
    refine ⟨hsimd, hvoices, by omega, fun sd sd' v v' q hv hv' => halloc.entry_inj hv hv',
      fun sd v q hv => ?_, fun _ => ?_⟩
    · have hlt := halloc.entry_lt hv
      have hgroup : (slotGroup q).val = q.val / 4 := rfl
      exact ⟨hlt, by omega⟩
    · simpa [← halloc.nVoices] using ⟨halloc.alloc, halloc.nSimd⟩

/-- Settles O46: a tick hands a difference in the two hidden components on as such, and the snapshot caches, alike before
it, are alike after it. -/
theorem tickDoesNotReadDefaultSubtypes : Obligations.TickDoesNotReadDefaultSubtypes := by
  unfold Obligations.TickDoesNotReadDefaultSubtypes
  intro c b d
  have h : b.SameBesidesHidden { b with defsub := d } := ⟨b.snap, d, rfl⟩
  obtain ⟨sn', d', htick⟩ := h.tick
  have hsnap := h.tick_snap rfl
  rw [htick] at hsnap ⊢
  rw [show sn' = b.tick.snap from hsnap]

/-- Settles O47: as O46, with the Default Subtype Memory alike before and after the tick. -/
theorem tickDoesNotReadSnapshots : Obligations.TickDoesNotReadSnapshots := by
  unfold Obligations.TickDoesNotReadSnapshots
  intro c b sn
  have h : b.SameBesidesHidden { b with snap := sn } := ⟨sn, b.defsub, rfl⟩
  obtain ⟨sn', d', htick⟩ := h.tick
  have hdefsub := h.tick_defsub rfl
  rw [htick] at hdefsub ⊢
  rw [show d' = b.tick.defsub from hdefsub]

/-- Settles O11: RESET leaves the block that construction makes. -/
theorem resetValuesAfterConstructionAndReset : Obligations.ResetValuesAfterConstructionAndReset := by
  unfold Obligations.ResetValuesAfterConstructionAndReset
  exact ⟨Block.reset_resetTable Config.device,
    fun s => ⟨s.wrote (Block.reset Config.device), rfl, Block.reset_resetTable Config.device⟩⟩

/-- Settles O12: nothing is latched in the reset block, and its components hold legal values (`Block.reset_inv`). -/
theorem resetEstablishesInvariant : Obligations.ResetEstablishesInvariant := by
  unfold Obligations.ResetEstablishesInvariant
  exact Block.reset_inv Config.device

/-- Settles O49: neither the boundary nor the per-sample path writes them. -/
theorem tickKeepsPortRegisters : Obligations.TickKeepsPortRegisters := by
  unfold Obligations.TickKeepsPortRegisters
  intro c b
  exact ⟨b.tick_poly, b.tick_vin, b.tick_param, b.tick_mods, b.tick_fs⟩

end Sys2Proof

/-! PROOFS. What a lane update reads (R70, R72, R185). -/

namespace Sys2Proof.Config

variable {c : Config}

/-- A lane update from a state with other write pointers, another mask and other delay buffers: they are all that differs
(R70, R72, R185). -/
theorem laneUpdate_with_recursive (ctx : Ctx c.nCoef) (gs : c.GS) (l : LaneIx) (wp : Vector (Fin c.delayLen) 4)
    (active : BitVec 4) (db : Vector (Vector F c.delayLen) 4) :
    laneUpdate ctx { gs with wp := wp, active := active, db := db } l =
      { laneUpdate ctx gs l with wp := wp, active := active, db := db } :=
  rfl

/-- A function of the strategy table from a state with another ramp: the ramp is all that differs (R70, R206 (c)). -/
theorem filterFn_with_ramp {t s : Nat} {f : c.GS → Vec4 → c.GS × Vec4} (h : c.filterFn t s = some f) (gs : c.GS)
    (x : Vec4) (ramp : Vector Vec4 c.nCoef) :
    f { gs with ramp := ramp } x = ({ (f gs x).1 with ramp := ramp }, (f gs x).2) := by
  obtain ⟨g, -, rfl⟩ := Option.map_eq_some_iff.mp h
  exact guardFilter_with_ramp g gs x ramp

end Sys2Proof.Config

/-! PROOFS. The selectors clamp on the integers as they are written in R201. -/

namespace Sys2Proof.Machine.Block

variable {c : Config} (b : Block c)

theorem selectedType_eq : (b.selectedType.val : Int) = max 0 (min b.param.type (c.nTypes - 1)) := by
  change ((clamp b.param.type 0 c.nTypesPred).toNat : Int) = max 0 (min b.param.type ((c.nTypesPred + 1 : Nat) - 1))
  unfold clamp
  omega

theorem selectedSub_eq :
    (b.selectedSub : Int) = max 0 (min b.param.subtype (max (c.choices.nSub b.selectedType.val) 1 - 1)) := by
  unfold selectedSub clamp Config.subtypes
  omega

/-- The Default Subtype Memory after `SELCHK`: the entry of the selected type is the selected subtype, every other entry
is kept (R202). -/
theorem selchk_defsub_getElem (k : Fin c.nTypes) :
    b.selchk.defsub[k] = if k = b.selectedType then b.selectedSub else b.defsub[k] := by
  simp [Vector.getElem_set, Fin.ext_iff, eq_comm]

end Sys2Proof.Machine.Block

/-! PROOFS. A tick within a block is the per-sample path alone (R221, R222): it leaves every ramp and reads no port but the
input voltages (R84 to R86). -/

namespace Sys2Proof.Machine.Block

variable {c : Config} {b : Block c}

theorem tick_eq_sample (hpos : b.pos < c.blockSize) : b.tick = b.sample := by
  rcases b.tick_cases with ⟨hge, -⟩ | ⟨-, htick⟩
  · omega
  · exact htick

/-- One group's sample leaves the ramp, in bypass as under a resolved function (R205, R206 (c)). -/
theorem dispatched_ramp (b : Block c) (gs : c.GS) (x : Vec4) : (b.dispatched gs x).1.ramp = gs.ramp := by
  unfold dispatched
  split
  · rfl
  · next f hf =>
    unfold resolved at hf
    split at hf
    · cases hf
    · exact Config.filterFn_ramp hf gs x

/-- The per-sample path leaves every ramp: interpolation reads it only (R189), and so does the sample of a group. -/
theorem sample_ramp (b : Block c) (g : GroupIx) : b.sample.groups[g].ramp = b.groups[g].ramp := by
  have hgroups : b.sample.groups = (b.runGroups b.gather).1.groups := by rw [sample_eq]
  rw [hgroups, runGroups_group]
  split
  · rw [sampled, dispatched_ramp, Config.interp_ramp]
  · rfl

/-- The per-sample path hands the polyphony, parameter, modulation and sample-rate registers on unread (R84, R85). -/
theorem sample_with_ports (b : Block c) (p : PerSide Int) (q : ParamSlots) (m : ModTable) (r : Vector F 8) :
    ({ b with poly := p, param := q, mods := m, fs := r } : Block c).sample =
      { b.sample with poly := p, param := q, mods := m, fs := r } := by
  have hcongr := sample_congr (b := b) (b' := { b with poly := p, param := q, mods := m, fs := r })
    rfl rfl rfl rfl rfl rfl
  rw [hcongr, sample_eq b]

end Sys2Proof.Machine.Block

/-! The obligations on lane updates, the selector and the ticks within a block. -/

namespace Sys2Proof

open Sys2Proof.Machine

/-- Settles O40: which lane an update writes and with what are `laneUpdate_coef` and `laneUpdate_ramp`; what it does not
read is `laneUpdate_with_recursive`. -/
theorem laneUpdateWritesItsLaneOnly : Obligations.LaneUpdateWritesItsLaneOnly := by
  unfold Obligations.LaneUpdateWritesItsLaneOnly
  intro c ctx gs gs' l i
  refine ⟨fun l' hne => ?other, fun l' => ?same, Config.laneUpdate_wp ctx gs l, Config.laneUpdate_active ctx gs l,
    Config.laneUpdate_db ctx gs l, Config.laneUpdate_with_recursive ctx gs l _ _ _⟩
  case other =>
    exact ⟨(Config.laneUpdate_coef ctx gs l l' i).trans (if_neg hne),
      (Config.laneUpdate_ramp ctx gs l l' i).trans (if_neg hne)⟩
  case same => simp only [Config.laneUpdate_coef, Config.laneUpdate_ramp, if_true, and_self]

/-- Settles O42: the statement's pair is the selected one (`selectedType_eq`, `selectedSub_eq`), and the function that
`SELCHK` resolves is the strategy table's. -/
theorem selectorLatchesClampedPair : Obligations.SelectorLatchesClampedPair := by
  unfold Obligations.SelectorLatchesClampedPair
  intro c b t u
  have ht : t = b.selectedType.val := b.selectedType_eq.symm
  have hu : u = b.selectedSub := by rw [b.selectedSub_eq]; simp only [u, ht, Int.toNat_natCast]
  have hfn : b.selchk.resolved = c.filterFn t.toNat u.toNat := by
    rw [ht, hu, b.selchk_resolved, Int.toNat_natCast, Int.toNat_natCast]
  refine ⟨b.selchk_curType.trans ht.symm, b.selchk_curSub.trans hu.symm, fun k => ?_, hfn, b.selchk_param,
    fun f hf => Config.filterFn_with_ramp (hfn.symm.trans hf)⟩
  rw [b.selchk_defsub_getElem, ht, hu, Nat.cast_ite]
  simp only [Fin.ext_iff, Nat.cast_inj]

/-- Settles O50: the tick is the per-sample path, in closed form `sample_eq`, and that leaves the ramps (`sample_ramp`). -/
theorem midBlockTickKeepsSteeringState : Obligations.MidBlockTickKeepsSteeringState := by
  unfold Obligations.MidBlockTickKeepsSteeringState
  intro c b hpos
  rw [Block.tick_eq_sample hpos]
  refine ⟨?_, b.sample_ramp⟩
  rw [Block.sample_eq]

/-- Settles O51: with and without the writes the tick is the per-sample path, which does not read them. -/
theorem midBlockTickIgnoresPortWrites : Obligations.MidBlockTickIgnoresPortWrites := by
  unfold Obligations.MidBlockTickIgnoresPortWrites
  intro c b p q m r hpos
  have hwritten := Block.tick_eq_sample (b := { b with poly := p, param := q, mods := m, fs := r }) hpos
  rw [hwritten, Block.tick_eq_sample hpos, Block.sample_with_ports]

end Sys2Proof

/-! PROOFS. Which bytes are the number of an operand, and that each number is read back (R108, R109, R114). -/

namespace Sys2Proof

theorem toNat_byteOfFin {n : Nat} (hn : n ≤ 256) (k : Fin n) : (byteOfFin k).toNat = k.val := by
  rw [byteOfFin, BitVec.toNat_ofNat]
  exact Nat.mod_eq_of_lt (by omega)

@[simp] theorem byteOfFin_mk {n : Nat} (x : BitVec 8) (h : x.toNat < n) : byteOfFin ⟨x.toNat, h⟩ = x :=
  (BitVec.ofNat_toNat 8 x).trans (BitVec.setWidth_eq x)

@[simp] theorem channelOfByte?_byteOfFin (k : Channel) : channelOfByte? (byteOfFin k) = .ok k := by
  simp [channelOfByte?, toNat_byteOfFin]

@[simp] theorem parameterOfByte?_byteOfFin (k : Fin 5) : parameterOfByte? (byteOfFin k) = .ok k := by
  simp [parameterOfByte?, toNat_byteOfFin]

@[simp] theorem sourceOfByte?_byteOfFin (k : Fin 4) : sourceOfByte? (byteOfFin k) = .ok k := by
  simp [sourceOfByte?, toNat_byteOfFin]

/-- A range check on a byte gives the number that the byte stands for. -/
theorem byteOfFin_of_rangeCheck {n : Nat} {x : BitVec 8} {r : Reserved} {k : Fin n}
    (h : (if h : x.toNat < n then Except.ok ⟨x.toNat, h⟩ else Except.error r) = Except.ok k) : byteOfFin k = x := by
  split at h <;> cases h
  exact byteOfFin_mk x _

theorem byteOfFin_of_channelOfByte? {x : BitVec 8} {k : Channel} (h : channelOfByte? x = .ok k) : byteOfFin k = x :=
  byteOfFin_of_rangeCheck h

theorem byteOfFin_of_parameterOfByte? {x : BitVec 8} {k : Fin 5} (h : parameterOfByte? x = .ok k) : byteOfFin k = x :=
  byteOfFin_of_rangeCheck h

theorem byteOfFin_of_sourceOfByte? {x : BitVec 8} {k : Fin 4} (h : sourceOfByte? x = .ok k) : byteOfFin k = x :=
  byteOfFin_of_rangeCheck h

theorem Side.toNat_byte_le (sd : Side) : sd.byte.toNat ≤ 1 := by cases sd <;> decide

theorem ParamSlot.toNat_byte_le (p : ParamSlot) : p.byte.toNat ≤ 6 := by cases p <;> decide

theorem toNat_byteOfFin_le {n : Nat} (k : Fin (n + 1)) : (byteOfFin k).toNat ≤ n :=
  (Nat.mod_le _ _).trans (Nat.le_of_lt_succ k.isLt)

theorem exists_byteOfFin {n : Nat} {x : BitVec 8} (h : x.toNat ≤ n) : ∃ k : Fin (n + 1), byteOfFin k = x :=
  ⟨⟨x.toNat, Nat.lt_succ_of_le h⟩, byteOfFin_mk x _⟩

theorem Side.exists_byte {x : BitVec 8} (h : x.toNat ≤ 1) : ∃ sd : Side, sd.byte = x := by
  obtain hx | hx : x.toNat = 0 ∨ x.toNat = 1 := by omega
  · exact ⟨.left, BitVec.eq_of_toNat_eq hx.symm⟩
  · exact ⟨.right, BitVec.eq_of_toNat_eq hx.symm⟩

theorem ParamSlot.exists_byte {x : BitVec 8} (h : x.toNat ≤ 6) : ∃ p : ParamSlot, p.byte = x := by
  have hread : ∃ p, ParamSlot.ofByte? x = .ok p := by
    unfold ParamSlot.ofByte?
    split
    case h_8 => grind
    all_goals exact ⟨_, rfl⟩
  obtain ⟨p, hp⟩ := hread
  exact ⟨p, ParamSlot.byte_of_ofByte? hp⟩

end Sys2Proof

/-! PROOFS. The operands that the types leave to the check (R114, R128). -/

namespace Sys2Proof

theorem setrate_wellFormedFor_iff {n : Nat} {rate : F} :
    (Instr.setrate rate).WellFormedFor n ↔ Float32.isFinitePos rate := by
  simp [Instr.WellFormedFor, Instr.checkFor]

theorem setpoly_wellFormedFor_iff {n : Nat} {sd : Side} {count : Int} :
    (Instr.setpoly sd count).WellFormedFor n ↔ -1 ≤ count ∧ count ≤ 16 := by
  simp [Instr.WellFormedFor, Instr.checkFor]

theorem wrdef_wellFormedFor_iff {n : Nat} {type : BitVec 8} {subtype : Int} :
    (Instr.wrdef type subtype).WellFormedFor n ↔ type.toNat < n ∧ 0 ≤ subtype ∧ subtype ≤ 2147483647 := by
  refine ⟨Machine.legal_of_wrdef_checkFor, fun ⟨htype, hsub⟩ => ?_⟩
  rw [Instr.WellFormedFor, Instr.checkFor, if_pos htype, if_pos hsub]

theorem rddef_wellFormedFor_iff {n : Nat} {type : BitVec 8} :
    (Instr.rddef type).WellFormedFor n ↔ type.toNat < n := by
  simp [Instr.WellFormedFor, Instr.checkFor]

end Sys2Proof

/-! PROOFS. Masks and match values, field by field (R111, R112, R115). -/

namespace Sys2Proof

theorem fieldsOf_inj {w w' : Word} : fieldsOf w = fieldsOf w' ↔ w = w' :=
  ⟨fun h => by rw [← word_fieldsOf w, h, word_fieldsOf], fun h => h ▸ rfl⟩

/-- A word is made of its fields by disjunction (R115). -/
theorem Fields.word_eq_or (f : Fields) :
    f.word = f.op.setWidth 64 <<< 56 ||| f.a.setWidth 64 <<< 48 ||| f.b.setWidth 64 <<< 40 |||
      f.z.setWidth 64 <<< 32 ||| f.data.setWidth 64 := by
  apply BitVec.eq_of_getLsbD_eq
  intro i hi
  simp only [Fields.word, BitVec.getLsbD_append, BitVec.getLsbD_or, BitVec.getLsbD_shiftLeft, BitVec.getLsbD_setWidth]
  grind

theorem Opcode.matchWord_eq (o : Opcode) : o.matchWord = o.byte.setWidth 64 <<< 56 := by cases o <;> rfl

theorem fieldsOf_matchWord (o : Opcode) : fieldsOf o.matchWord = ⟨o.byte, 0#8, 0#8, 0#8, 0#32⟩ := by cases o <;> rfl

theorem fieldsOf_and (w w' : Word) :
    fieldsOf (w &&& w') =
      ⟨(fieldsOf w).op &&& (fieldsOf w').op, (fieldsOf w).a &&& (fieldsOf w').a, (fieldsOf w).b &&& (fieldsOf w').b,
        (fieldsOf w).z &&& (fieldsOf w').z, (fieldsOf w).data &&& (fieldsOf w').data⟩ := by
  simp only [fieldsOf, BitVec.extractLsb'_and]

/-- The mask fixes `OP`, `Z` and the fields without an operand (R112). -/
theorem fieldsOf_mask (fmt : Format) :
    fieldsOf fmt.mask =
      ⟨BitVec.allOnes 8, if fmt.usesA then 0#8 else BitVec.allOnes 8, if fmt.usesB then 0#8 else BitVec.allOnes 8,
        BitVec.allOnes 8, if fmt.usesData then 0#32 else BitVec.allOnes 32⟩ := by
  cases fmt <;> rfl

/-- A masked field is zero when the field carries an operand, or is zero itself. -/
theorem and_mask_eq_zero_iff {n : Nat} (used : Bool) (x : BitVec n) :
    x &&& (if used then 0#n else BitVec.allOnes n) = 0#n ↔ (used = false → x = 0#n) := by
  cases used <;> simp

theorem checkZeros_eq_none_iff {fmt : Format} {f : Fields} :
    checkZeros fmt f = none ↔
      f.z = 0#8 ∧ (fmt.usesA = false → f.a = 0#8) ∧ (fmt.usesB = false → f.b = 0#8) ∧
        (fmt.usesData = false → f.data = 0#32) := by
  unfold checkZeros
  grind

theorem Opcode.ofByte?_eq_some_iff {op : BitVec 8} {o : Opcode} : Opcode.ofByte? op = some o ↔ op = o.byte :=
  ⟨fun h => (Opcode.byte_of_ofByte? h).symm, fun h => h ▸ Opcode.ofByte?_byte o⟩

/-- Mask and match (R114) say that the opcode map assigns the word's `OP` to the command and that the fields without an
operand are zero. -/
theorem and_mask_eq_matchWord_iff {w : Word} {o : Opcode} :
    w &&& o.format.mask = o.matchWord ↔
      Opcode.ofByte? (fieldsOf w).op = some o ∧ checkZeros o.format (fieldsOf w) = none := by
  rw [← fieldsOf_inj, fieldsOf_and, fieldsOf_mask, fieldsOf_matchWord, Opcode.ofByte?_eq_some_iff,
    checkZeros_eq_none_iff, Fields.mk.injEq, BitVec.and_allOnes, BitVec.and_allOnes, and_mask_eq_zero_iff,
    and_mask_eq_zero_iff, and_mask_eq_zero_iff]
  tauto

end Sys2Proof

/-! PROOFS. The fields of a command's word, and what `assemble` makes of them (R113, R114). -/

namespace Sys2Proof

/-- The fields of the word of a command. -/
def Instr.fields (i : Instr) : Fields := ⟨i.opcode.byte, i.fieldA, i.fieldB, 0#8, i.fieldData⟩

section

variable (sd : Side) (k : Channel) (p : ParamSlot) (j : Fin 5) (l : Fin 4) (type : BitVec 8) (m : Int) (x : BitVec 32)

@[simp] theorem fields_reset : Instr.reset.fields = ⟨0x01#8, 0#8, 0#8, 0#8, 0#32⟩ := rfl
@[simp] theorem fields_tick : Instr.tick.fields = ⟨0x02#8, 0#8, 0#8, 0#8, 0#32⟩ := rfl
@[simp] theorem fields_setrate : (Instr.setrate x).fields = ⟨0x03#8, 0#8, 0#8, 0#8, x⟩ := rfl
@[simp] theorem fields_setpoly : (Instr.setpoly sd m).fields = ⟨0x10#8, sd.byte, 0#8, 0#8, BitVec.ofInt 32 m⟩ := rfl
@[simp] theorem fields_wrin : (Instr.wrin sd k x).fields = ⟨0x11#8, sd.byte, byteOfFin k, 0#8, x⟩ := rfl
@[simp] theorem fields_wrparam : (Instr.wrparam p x).fields = ⟨0x12#8, p.byte, 0#8, 0#8, x⟩ := rfl
@[simp] theorem fields_wrmod : (Instr.wrmod j l x).fields = ⟨0x13#8, byteOfFin j, byteOfFin l, 0#8, x⟩ := rfl
@[simp] theorem fields_wrdef : (Instr.wrdef type m).fields = ⟨0x14#8, type, 0#8, 0#8, BitVec.ofInt 32 m⟩ := rfl
@[simp] theorem fields_rdout : (Instr.rdout sd k).fields = ⟨0x20#8, sd.byte, byteOfFin k, 0#8, 0#32⟩ := rfl
@[simp] theorem fields_rdch : (Instr.rdch sd).fields = ⟨0x21#8, sd.byte, 0#8, 0#8, 0#32⟩ := rfl
@[simp] theorem fields_rdtype : Instr.rdtype.fields = ⟨0x22#8, 0#8, 0#8, 0#8, 0#32⟩ := rfl
@[simp] theorem fields_rdsub : Instr.rdsub.fields = ⟨0x23#8, 0#8, 0#8, 0#8, 0#32⟩ := rfl
@[simp] theorem fields_rddef : (Instr.rddef type).fields = ⟨0x24#8, type, 0#8, 0#8, 0#32⟩ := rfl
@[simp] theorem fields_rdparam : (Instr.rdparam p).fields = ⟨0x25#8, p.byte, 0#8, 0#8, 0#32⟩ := rfl

end

theorem encode_eq_word (i : Instr) : encode i = i.fields.word := rfl

@[simp] theorem fieldsOf_encode (i : Instr) : fieldsOf (encode i) = i.fields := fieldsOf_word i.fields

theorem encode_eq_iff {i : Instr} {w : Word} : encode i = w ↔ i.fields = fieldsOf w := by
  rw [← fieldsOf_inj, fieldsOf_encode]

/-- The fields of `f` that a command carries, under the command's own `OP` and with zeros elsewhere (R112). -/
def Opcode.carried (o : Opcode) (f : Fields) : Fields where
  op := o.byte
  a := if o.format.usesA then f.a else 0#8
  b := if o.format.usesB then f.b else 0#8
  z := 0#8
  data := if o.format.usesData then f.data else 0#32

/-- Nothing is lost in what a command carries of fields that pass the checks of R112. -/
theorem Opcode.carried_eq_self {o : Opcode} {f : Fields} (hop : Opcode.ofByte? f.op = some o)
    (hzeros : checkZeros o.format f = none) : o.carried f = f := by
  obtain ⟨hz, ha, hb, hdata⟩ := checkZeros_eq_none_iff.mp hzeros
  have hop := Opcode.byte_of_ofByte? hop
  rw [Opcode.carried, hop, ← hz]
  congr 1 <;> grind

/-- The fields of a command's word pass the checks of R112. -/
theorem checkZeros_fields (i : Instr) : checkZeros i.opcode.format i.fields = none := by
  cases i <;> rfl

/-- A 32-bit integer operand is read back from its two's-complement pattern (R113). -/
theorem toInt_ofInt_of_range {k : Int} (hlow : -2147483648 ≤ k) (hhigh : k ≤ 2147483647) :
    (BitVec.ofInt 32 k).toInt = k :=
  BitVec.toInt_ofInt_eq_self (by decide) hlow (by omega)

/-- The operands of a well-formed command are assembled again from its fields. -/
theorem assemble_fields {n : Nat} {i : Instr} (h : i.WellFormedFor n) : assemble i.opcode i.fields = .ok i := by
  cases i with
  | reset | tick | setrate | rdtype | rdsub | rddef => rfl
  | setpoly sd count =>
    obtain ⟨hlow, hhigh⟩ := setpoly_wellFormedFor_iff.mp h
    simp [assemble, Instr.opcode, toInt_ofInt_of_range (k := count) (by omega) (by omega)]
  | wrdef type subtype =>
    obtain ⟨-, hlow, hhigh⟩ := wrdef_wellFormedFor_iff.mp h
    simp [assemble, Instr.opcode, toInt_ofInt_of_range (k := subtype) (by omega) hhigh]
  | wrin | wrparam | wrmod | rdout | rdch | rdparam => simp [assemble, Instr.opcode]

/-- An assembled command has the fields that its operands come from. -/
theorem fields_of_assemble {o : Opcode} {f : Fields} {i : Instr} (h : assemble o f = .ok i) :
    i.fields = o.carried f := by
  cases o with
  | reset | tick | setrate | rdtype | rdsub | rddef => cases h; rfl
  | wrdef =>
    cases h
    simp only [fields_wrdef, BitVec.ofInt_toInt]
    rfl
  | setpoly | rdch =>
    simp only [assemble] at h
    split at h <;> cases h
    simp only [fields_setpoly, fields_rdch, Side.byte_of_ofByte? ‹_›, BitVec.ofInt_toInt]
    rfl
  | wrin | rdout =>
    simp only [assemble] at h
    split at h <;> cases h
    simp only [fields_wrin, fields_rdout, Side.byte_of_ofByte? ‹_›, byteOfFin_of_channelOfByte? ‹_›]
    rfl
  | wrparam | rdparam =>
    simp only [assemble] at h
    split at h <;> cases h
    simp only [fields_wrparam, fields_rdparam, ParamSlot.byte_of_ofByte? ‹_›]
    rfl
  | wrmod =>
    simp only [assemble] at h
    split at h <;> cases h
    simp only [fields_wrmod, byteOfFin_of_parameterOfByte? ‹_›, byteOfFin_of_sourceOfByte? ‹_›]
    rfl

/-- The decoder accepts exactly the words of well-formed commands. -/
theorem decodeFor_ok_iff_fields {n : Nat} {w : Word} {i : Instr} :
    decodeFor n w = .ok i ↔ i.fields = fieldsOf w ∧ i.WellFormedFor n := by
  rw [decodeFor_ok]
  constructor
  · rintro ⟨o, hop, hzeros, hassemble, hwf⟩
    exact ⟨(fields_of_assemble hassemble).trans (Opcode.carried_eq_self hop hzeros), hwf⟩
  · rintro ⟨hfields, hwf⟩
    rw [← hfields]
    exact ⟨i.opcode, Opcode.ofByte?_byte _, checkZeros_fields i, assemble_fields hwf, hwf⟩

end Sys2Proof

/-! PROOFS. The legal fields, written out by opcode, are those of the well-formed commands (R114, R128). -/

namespace Sys2Proof

/-- The fields of a well-formed command stand in the row of its opcode. -/
theorem legalFields_fields {n : Nat} {i : Instr} (h : i.WellFormedFor n) : LegalFields n i.fields := by
  cases i with
  | reset | tick | rdtype | rdsub => simp [LegalFields]
  | setrate rate => simpa [LegalFields] using setrate_wellFormedFor_iff.mp h
  | setpoly sd count =>
    obtain ⟨hlow, hhigh⟩ := setpoly_wellFormedFor_iff.mp h
    have hint : (BitVec.ofInt 32 count).toInt = count := toInt_ofInt_of_range (by omega) (by omega)
    simp [LegalFields, sd.toNat_byte_le, hint, hlow, hhigh]
  | wrdef type subtype =>
    obtain ⟨htype, hlow, hhigh⟩ := wrdef_wellFormedFor_iff.mp h
    have hint : (BitVec.ofInt 32 subtype).toInt = subtype := toInt_ofInt_of_range (by omega) hhigh
    simp [LegalFields, htype, hint, hlow]
  | wrin sd k | rdout sd k => simp [LegalFields, sd.toNat_byte_le, toNat_byteOfFin_le k]
  | wrmod j l => simp [LegalFields, toNat_byteOfFin_le j, toNat_byteOfFin_le l]
  | rdch sd => simp [LegalFields, sd.toNat_byte_le]
  | wrparam p | rdparam p => simp [LegalFields, p.toNat_byte_le]
  | rddef type => simpa [LegalFields] using rddef_wellFormedFor_iff.mp h

/-- Fields in a row of the opcode map are those of a command with legal operands. -/
theorem exists_fields_eq_of_legalFields {n : Nat} {f : Fields} (h : LegalFields n f) :
    ∃ i : Instr, i.fields = f ∧ i.WellFormedFor n := by
  obtain ⟨op, a, b, z, data⟩ := f
  have hint : BitVec.ofInt 32 data.toInt = data := BitVec.ofInt_toInt
  obtain ⟨rfl, hrow⟩ := h
  rcases hrow with ⟨rfl, rfl, rfl, rfl⟩ | ⟨rfl, rfl, rfl, rfl⟩ | ⟨rfl, rfl, rfl, hrate⟩ | ⟨rfl, ha, rfl, hcount⟩ |
    ⟨rfl, ha, hb⟩ | ⟨rfl, ha, rfl⟩ | ⟨rfl, ha, hb⟩ | ⟨rfl, ha, rfl, hsub⟩ | ⟨rfl, ha, hb, rfl⟩ | ⟨rfl, ha, rfl, rfl⟩ |
    ⟨rfl, rfl, rfl, rfl⟩ | ⟨rfl, rfl, rfl, rfl⟩ | ⟨rfl, ha, rfl, rfl⟩ | ⟨rfl, ha, rfl, rfl⟩
  · exact ⟨.reset, rfl, rfl⟩
  · exact ⟨.tick, rfl, rfl⟩
  · exact ⟨.setrate data, rfl, setrate_wellFormedFor_iff.mpr hrate⟩
  · obtain ⟨sd, rfl⟩ := Side.exists_byte ha
    exact ⟨.setpoly sd data.toInt, congrArg _ hint, setpoly_wellFormedFor_iff.mpr hcount⟩
  · obtain ⟨sd, rfl⟩ := Side.exists_byte ha
    obtain ⟨k, rfl⟩ := exists_byteOfFin hb
    exact ⟨.wrin sd k data, rfl, rfl⟩
  · obtain ⟨p, rfl⟩ := ParamSlot.exists_byte ha
    exact ⟨.wrparam p data, rfl, rfl⟩
  · obtain ⟨p, rfl⟩ := exists_byteOfFin ha
    obtain ⟨k, rfl⟩ := exists_byteOfFin hb
    exact ⟨.wrmod p k data, rfl, rfl⟩
  · exact ⟨.wrdef a data.toInt, congrArg _ hint,
      wrdef_wellFormedFor_iff.mpr ⟨ha, hsub, Int.le_of_lt_add_one data.toInt_lt⟩⟩
  · obtain ⟨sd, rfl⟩ := Side.exists_byte ha
    obtain ⟨k, rfl⟩ := exists_byteOfFin hb
    exact ⟨.rdout sd k, rfl, rfl⟩
  · obtain ⟨sd, rfl⟩ := Side.exists_byte ha
    exact ⟨.rdch sd, rfl, rfl⟩
  · exact ⟨.rdtype, rfl, rfl⟩
  · exact ⟨.rdsub, rfl, rfl⟩
  · exact ⟨.rddef a, rfl, rddef_wellFormedFor_iff.mpr ha⟩
  · obtain ⟨p, rfl⟩ := ParamSlot.exists_byte ha
    exact ⟨.rdparam p, rfl, rfl⟩

/-- A word is accepted exactly when its fields are legal (R128). -/
theorem exists_decodeFor_ok_iff {n : Nat} {w : Word} :
    (∃ i, decodeFor n w = .ok i) ↔ LegalFields n (fieldsOf w) := by
  constructor
  · rintro ⟨i, h⟩
    obtain ⟨hfields, hwf⟩ := decodeFor_ok_iff_fields.mp h
    exact hfields ▸ legalFields_fields hwf
  · intro h
    obtain ⟨i, hfields, hwf⟩ := exists_fields_eq_of_legalFields h
    exact ⟨i, decodeFor_ok_iff_fields.mpr ⟨hfields, hwf⟩⟩

end Sys2Proof

/-! PROOFS. Refusals (R128, R290). -/

namespace Sys2Proof.Machine

theorem step_of_decode_error {s : State} {w : Word} {rest : List Word} {r : Reserved} (hcmds : s.cmds = w :: rest)
    (h : decode w = .error r) : step s = .refused (.reserved r) := by
  simp only [step, State.fetch, hcmds, h]

/-- Every command runs through the operand check: it completes in some state, or is refused by the check (R128). -/
theorem exec_eq_accept (i : Instr) (s : State) : ∃ t, exec i s = accept (i.checkFor Config.device.nTypes) t := by
  cases i <;> exact ⟨_, rfl⟩

end Sys2Proof.Machine

/-! The obligations on the command word and on which commands complete. -/

namespace Sys2Proof

open Sys2Proof.Machine

/-- Settles O1: the fields of the word are the command's (`fieldsOf_encode`), which the decoder accepts. -/
theorem decodeOfEncode : Obligations.DecodeOfEncode := by
  unfold Obligations.DecodeOfEncode
  intro n i hwf
  exact decodeFor_ok_iff_fields.mpr ⟨(fieldsOf_encode i).symm, hwf⟩

/-- Settles O2: a word is determined by its fields (`encode_eq_iff`), and those are the command's. -/
theorem encodeOfDecode : Obligations.EncodeOfDecode := by
  unfold Obligations.EncodeOfDecode
  intro n w i h
  obtain ⟨hfields, hwf⟩ := decodeFor_ok_iff_fields.mp h
  exact ⟨encode_eq_iff.mpr hfields, hwf⟩

/-- Settles O3: mask and match are the decoder's two checks on the opcode and on the zeros. -/
theorem wordSelectsCommandByMaskAndMatch : Obligations.WordSelectsCommandByMaskAndMatch := by
  unfold Obligations.WordSelectsCommandByMaskAndMatch
  intro n w i
  simp only [decodeFor_ok, and_mask_eq_matchWord_iff, and_assoc]

/-- Settles O4: the full word is that of its fields by disjunction (`Fields.word_eq_or`), of which `Z` is zero. -/
theorem fullWordIsMatchWithFields : Obligations.FullWordIsMatchWithFields := by
  unfold Obligations.FullWordIsMatchWithFields
  refine ⟨rfl, Opcode.matchWord_eq, fun i => ?_, rfl, rfl, rfl⟩
  rw [encode_eq_word, Fields.word_eq_or, Opcode.matchWord_eq]
  simp [Instr.fields]

/-- Settles O5: the accepted words are those with legal fields (`exists_decodeFor_ok_iff`), and a step refuses
what the decoder does not accept. -/
theorem onlyLegalWordsAreAccepted : Obligations.OnlyLegalWordsAreAccepted := by
  unfold Obligations.OnlyLegalWordsAreAccepted
  refine ⟨fun n w => exists_decodeFor_ok_iff, fun s w rest hcmds hillegal => ?_⟩
  cases hd : decode w with
  | ok i => exact absurd (exists_decodeFor_ok_iff.mp ⟨i, hd⟩) hillegal
  | error r => exact ⟨r, step_of_decode_error hcmds hd⟩

/-- Settles O9: every command runs through the operand check (`exec_eq_accept`), which never faults. -/
theorem commandCompletesExactlyWhenLegal : Obligations.CommandCompletesExactlyWhenLegal := by
  unfold Obligations.CommandCompletesExactlyWhenLegal
  intro i s
  obtain ⟨t, ht⟩ := exec_eq_accept i s
  rw [ht]
  exact ⟨fun hwf => ⟨t, accept_next.mpr ⟨hwf, rfl⟩⟩, fun r hr => accept_refused.mpr ⟨r, hr, rfl⟩, accept_not_fault⟩

/-- Settles O6: each word is that of a well-formed command. -/
theorem sampleWordsDecode : Obligations.SampleWordsDecode := by
  unfold Obligations.SampleWordsDecode
  simp only [decodeFor_ok_iff_fields]
  decide

end Sys2Proof

/-! PROOFS. What `VALLOC` makes of every pair of polyphony counts (R142 to R148). -/

namespace Sys2Proof.Machine

theorem alloc_disconnected : allocTable (-1) (-1) = ⟨noVoices, noVoices⟩ ∧ allocVoices (-1) (-1) = 0 := by
  simpa using alloc_cases (-1) (-1)

theorem alloc_left (p : Nat) : allocTable p (-1) = ⟨sequential p, noVoices⟩ ∧ allocVoices p (-1) = p := by
  have hp : (p : Int) ≠ -1 := by omega
  simpa [hp] using alloc_cases p (-1)

theorem alloc_right (p : Nat) : allocTable (-1) p = ⟨noVoices, sequential p⟩ ∧ allocVoices (-1) p = p := by
  have hp : (p : Int) ≠ -1 := by omega
  simpa [hp] using alloc_cases (-1) p

theorem alloc_stacked (pl pr : Nat) :
    allocTable pl pr = ⟨stackedLeft (max pl pr : Nat), stackedRight (max pl pr : Nat)⟩ ∧
      allocVoices pl pr = 2 * max pl pr := by
  have hl : (pl : Int) ≠ -1 := by omega
  have hr : (pr : Int) ≠ -1 := by omega
  simpa [hl, hr, ← Nat.cast_max] using alloc_cases pl pr

/-! The slot numbers of the packings, for a count that is not the sentinel. -/

theorem sequential_slot (p : Nat) (v : Channel) :
    ((sequential p)[v]).map Fin.val = if v.val < p then some v.val else none := by
  simp only [sequential_entry, apply_ite (Option.map Fin.val), Option.map_some, Option.map_none, Int.ofNat_lt]

theorem stackedLeft_slot (m : Nat) (v : Channel) :
    ((stackedLeft m)[v]).map Fin.val = if v.val < m then some (2 * v.val) else none := by
  simp only [stackedLeft_entry, apply_ite (Option.map Fin.val), Option.map_some, Option.map_none, Int.ofNat_lt]

theorem stackedRight_slot (m : Nat) (v : Channel) :
    ((stackedRight m)[v]).map Fin.val = if v.val < m then some (2 * v.val + 1) else none := by
  simp only [stackedRight_entry, apply_ite (Option.map Fin.val), Option.map_some, Option.map_none, Int.ofNat_lt]

@[simp] theorem clearGroup_clearGroup {a b n : Nat} (gs : GroupState a b (n + 1)) :
    clearGroup (clearGroup gs) = clearGroup gs := rfl

namespace Block

variable {c : Config} (b : Block c)

theorem valloc_entry (pl pr : Int) (sd : Side) (v : Channel) :
    (b.valloc pl pr).entry sd v = ((allocTable pl pr).get sd)[v] := by
  rw [entry, valloc_alloc]

theorem valloc_group (pl pr : Int) (g : GroupIx) : (b.valloc pl pr).groups[g] = clearGroup b.groups[g] :=
  freset_group _ g

theorem valloc_snapshot (pl pr : Int) (g : GroupIx) : (b.valloc pl pr).snap[g] = Vector.replicate _ zero4 :=
  freset_snapshot _ g

/-- After a run of the allocator on the polyphony that is latched, R33 (d) holds. -/
theorem valloc_allocated (pl pr : Int) : ({ b.valloc pl pr with lastPoly := ⟨pl, pr⟩ } : Block c).Allocated where
  alloc := b.valloc_alloc pl pr
  nVoices := b.valloc_nVoices pl pr
  nSimd := (b.valloc_nSimd pl pr).trans (congrArg (ceilDiv · 4) (b.valloc_nVoices pl pr).symm)

/-- Nothing of an earlier run of the allocator is left (R141, R148 (c)). -/
theorem valloc_valloc (pl pr pl' pr' : Int) : (b.valloc pl pr).valloc pl' pr' = b.valloc pl' pr' := by
  have hgroups : (b.groups.map clearGroup).map clearGroup = b.groups.map clearGroup := by
    simp [Function.comp_def]
  simp only [valloc, freset, hgroups]

end Block

end Sys2Proof.Machine

/-! The obligations on the Voice Allocator. -/

namespace Sys2Proof

open Sys2Proof.Machine

/-- Settles O34: the table is `sequential` on the connected side and empty on the other (`alloc_left`, `alloc_right`). -/
theorem singleSidePacksSequentially : Obligations.SingleSidePacksSequentially := by
  unfold Obligations.SingleSidePacksSequentially
  intro c b sd p _
  simp only [Block.valloc_entry, Block.valloc_nVoices, Block.valloc_nSimd]
  cases sd with
  | left =>
    obtain ⟨htable, hvoices⟩ := alloc_left p
    simp only [if_true, htable, hvoices, true_and]
    refine ⟨sequential_slot p, fun sd' v hne => ?_, rfl⟩
    cases sd' with
    | left => exact absurd rfl hne
    | right => exact noVoices_entry v
  | right =>
    obtain ⟨htable, hvoices⟩ := alloc_right p
    simp only [reduceCtorEq, if_false, htable, hvoices, true_and]
    refine ⟨sequential_slot p, fun sd' v hne => ?_, rfl⟩
    cases sd' with
    | left => exact noVoices_entry v
    | right => exact absurd rfl hne

/-- Settles O35: the two sides are stacked on even and on odd slots (`alloc_stacked`). -/
theorem connectedSidesStack : Obligations.ConnectedSidesStack := by
  unfold Obligations.ConnectedSidesStack
  intro c b pl pr _ _
  obtain ⟨htable, hvoices⟩ := alloc_stacked pl pr
  simp only [Block.valloc_entry, Block.valloc_nVoices, Block.valloc_nSimd, htable, hvoices, true_and]
  exact ⟨stackedLeft_slot _, stackedRight_slot _, rfl⟩

/-- Settles O36: (a), (b), (d) and (e) are what R33 says of an allocated table (`Block.valloc_allocated`), and a second run
of the allocator finds nothing to change (`Block.valloc_valloc`). -/
theorem allocationIsSoundForAllPairs : Obligations.AllocationIsSoundForAllPairs := by
  unfold Obligations.AllocationIsSoundForAllPairs
  intro c b pl pr _ _
  have halloc := b.valloc_allocated pl pr
  refine ⟨fun sd sd' v v' q => halloc.entry_inj, halloc.nSimd_eq, b.valloc_valloc pl pr pl pr,
    fun sd v q => halloc.entry_lt, fun sd => ?_⟩
  calc (((b.valloc pl pr).alloc.get sd).toList.filter Option.isSome).length
      ≤ ((b.valloc pl pr).alloc.get sd).toList.length := List.length_filter_le _ _
    _ = 16 := Vector.length_toList

/-- Settles O33: neither side has an entry (`alloc_disconnected`). -/
theorem disconnectedSidesGiveEmptyTable : Obligations.DisconnectedSidesGiveEmptyTable := by
  unfold Obligations.DisconnectedSidesGiveEmptyTable
  intro c b
  obtain ⟨htable, hvoices⟩ := alloc_disconnected
  simp only [Block.valloc_entry, Block.valloc_nVoices, Block.valloc_nSimd, htable, hvoices, true_and]
  refine ⟨fun sd v => ?_, rfl⟩
  cases sd <;> exact noVoices_entry v

/-- Settles O37: every group is a cleared one (`Block.valloc_group`), every snapshot is zero (`Block.valloc_snapshot`), and
apart from the table the block is that of the full reset by definition. -/
theorem allocatorAlwaysResetsTheStore : Obligations.AllocatorAlwaysResetsTheStore := by
  unfold Obligations.AllocatorAlwaysResetsTheStore
  intro c b pl pr
  refine ⟨fun g => ?_, rfl⟩
  rw [Block.valloc_group, Block.valloc_snapshot]
  simp

end Sys2Proof

/-! PROOFS. What a boundary does to the store: a change of the pair or of the polyphony clears every group before the
scheduler runs (R202, R224), and the scheduler writes coefficients and ramps only (R187). -/

namespace Sys2Proof.Machine.Block

variable {c : Config} (b : Block c)

/-! The scheduler's closed form, field by field. -/

@[simp] theorem scheduled_reg (g : GroupIx) : (b.scheduled g).reg = b.groups[g].reg := rfl

/-- The scheduler leaves what the lane updates do not write and the restore does not touch (R185, R187). -/
theorem scheduled_keeps (g : GroupIx) :
    (b.scheduled g).wp = b.groups[g].wp ∧ (b.scheduled g).active = b.groups[g].active ∧
      (b.scheduled g).db = b.groups[g].db :=
  Config.laneUpdates_keep (c.coefTarget (b.coefInputs g)) b.groups[g]

/-- The scheduler's coefficients and ramps are those of the group's context, in every lane (R183). -/
theorem scheduled_lane (g : GroupIx) (i : Fin c.nCoef) (l : LaneIx) :
    (b.scheduled g).coef[i][l] = c.choices.laneCoef (c.coefTarget (b.coefInputs g)) i ∧
      (b.scheduled g).ramp[i][l] = c.choices.laneRamp (c.coefTarget (b.coefInputs g)) i :=
  Config.laneUpdates_lane (c.coefTarget (b.coefInputs g)) b.groups[g] i l

/-! The two checks before the scheduler, in terms of the ports and the latched values. -/

/-- The change of the pair, by the values that `SELCHK` latches (R202). -/
theorem pairChanged_iff : b.PairChanged ↔ b.selchk.curType ≠ b.curType ∨ b.selchk.curSub ≠ b.curSub := by
  rw [selchk_curType, selchk_curSub]

theorem polyChanged_iff : b.PolyChanged ↔ ∃ sd, b.poly.get sd ≠ b.lastPoly.get sd := by
  constructor
  · rintro (hleft | hright)
    · exact ⟨.left, hleft⟩
    · exact ⟨.right, hright⟩
  · rintro ⟨sd, hsd⟩
    cases sd with
    | left => exact .inl hsd
    | right => exact .inr hsd

theorem selchk_polyChanged_iff : b.selchk.PolyChanged ↔ b.PolyChanged := by
  simp only [PolyChanged, selchk_poly, selchk_lastPoly]

/-- A full reset, of the pair's change or of the allocator's, clears every group (R161, R202, R224). -/
theorem selchk_checkPoly_group_of_changed (h : b.PairChanged ∨ b.PolyChanged) (g : GroupIx) :
    b.selchk.checkPoly.groups[g] = clearGroup b.groups[g] := by
  rw [← b.selchk_polyChanged_iff] at h
  rw [checkPoly_groups, selchk_groups]
  by_cases hpoly : b.selchk.PolyChanged
  · -- the allocator's reset clears whatever `SELCHK` left, cleared already or not
    rw [if_pos hpoly]
    split <;> simp
  · rw [if_neg hpoly, if_pos (h.resolve_right hpoly), freset_group]

/-- Without a change both checks leave the filter units and the Allocation Table (R202, R224). -/
theorem selchk_checkPoly_of_unchanged (hpair : ¬ b.PairChanged) (hpoly : ¬ b.PolyChanged) :
    b.selchk.checkPoly = b.selchk ∧ b.selchk.groups = b.groups := by
  rw [← b.selchk_polyChanged_iff] at hpoly
  exact ⟨if_neg hpoly, b.selchk_groups.trans (if_neg hpair)⟩

/-! The coefficients after a full reset. -/

theorem laneZero_of_cleared {g : GroupIx} {gs : c.GS} (h : b.groups[g] = clearGroup gs) :
    b.laneZero g = Vector.replicate c.nCoef zeroF := by
  rw [laneZero, h, clearGroup_coef, Vector.map_replicate]
  rfl

/-- What the boundary's scheduler computes the context of a group from: the pair that `SELCHK` latches, and else the
block's own values (R184). -/
theorem selchk_checkPoly_coefInputs (g : GroupIx) :
    b.selchk.checkPoly.coefInputs g =
      { sharedCfg := c.choices.sharedCfg, type := b.selchk.curType, subtype := b.selchk.curSub, param := b.param,
        mods := b.mods, group := g, sampleRate := b.fs[g], blockSize := c.blockSize,
        start := b.selchk.checkPoly.laneZero g } := by
  simp only [coefInputs, checkPoly_curType, checkPoly_curSub, checkPoly_param, checkPoly_mods, checkPoly_fs,
    selchk_param, selchk_mods, selchk_fs]

end Sys2Proof.Machine.Block

/-! The obligations on the Filter State Store. -/

namespace Sys2Proof

open Sys2Proof.Machine

/-- Settles O43: the scheduler runs on cleared groups (`Block.selchk_checkPoly_group_of_changed`), whose register file,
write pointers, mask and delay buffers it keeps, and whose lane 0 it finds zero (`Block.laneZero_of_cleared`). -/
theorem changeAtBoundaryClearsTheStore : Obligations.ChangeAtBoundaryClearsTheStore := by
  unfold Obligations.ChangeAtBoundaryClearsTheStore
  intro c b hchange g
  rw [← or_assoc, ← b.pairChanged_iff, ← b.polyChanged_iff] at hchange
  have hclear := b.selchk_checkPoly_group_of_changed hchange g
  obtain ⟨hwp, hactive, hdb⟩ := b.selchk.checkPoly.scheduled_keeps g
  have hinputs := b.selchk_checkPoly_coefInputs g
  rw [Block.laneZero_of_cleared _ hclear] at hinputs
  rw [b.boundary_group g, Block.scheduled_reg, hwp, hactive, hdb, hclear]
  refine ⟨fun r => by simp, fun l => by simp, rfl, rfl, fun i l => ?_⟩
  rw [← hinputs]
  exact b.selchk.checkPoly.scheduled_lane g i l

/-- Settles O44: both checks leave the groups and the table (`Block.selchk_checkPoly_of_unchanged`), and the scheduler
writes neither the table nor a group's recursive state. -/
theorem unchangedBoundaryKeepsRecursiveState : Obligations.UnchangedBoundaryKeepsRecursiveState := by
  unfold Obligations.UnchangedBoundaryKeepsRecursiveState
  intro c b htype hsub hpoly
  have hpair : ¬ b.PairChanged := fun h => (b.pairChanged_iff.mp h).elim (absurd htype) (absurd hsub)
  have hsame : ¬ b.PolyChanged := fun h => (b.polyChanged_iff.mp h).elim fun sd hne => hne (hpoly sd)
  obtain ⟨hcheck, hgroups⟩ := b.selchk_checkPoly_of_unchanged hpair hsame
  refine ⟨?alloc, ?nVoices, ?nSimd, fun g => ?group⟩
  case alloc => rw [b.boundary_eq, hcheck, b.selchk_alloc]
  case nVoices => rw [b.boundary_eq, hcheck, b.selchk_nVoices]
  case nSimd => rw [b.boundary_eq, hcheck, b.selchk_nSimd]
  case group =>
    rw [b.boundary_group g, hcheck, ← hgroups]
    exact ⟨b.selchk.scheduled_reg g, b.selchk.scheduled_keeps g⟩

/-- Settles O29: every group is a cleared one (`freset_group`) and every snapshot is zero (`freset_snapshot`); the other
components are the block's own by definition. -/
theorem fullResetZeroesTheStoreAndNothingElse : Obligations.FullResetZeroesTheStoreAndNothingElse := by
  unfold Obligations.FullResetZeroesTheStoreAndNothingElse
  intro c b
  refine ⟨fun g => ?_, rfl⟩
  rw [freset_group, freset_snapshot]
  refine ⟨fun r => ?_, fun i => ?_, fun l => ?_, clearGroup_active _, clearGroup_db _⟩
  · simp only [clearGroup_reg, Fin.getElem_fin, Vector.getElem_replicate, and_self]
  · simp only [clearGroup_coef, clearGroup_ramp, Fin.getElem_fin, Vector.getElem_replicate, and_self]
  · simp only [clearGroup_wp, Fin.getElem_fin, Vector.getElem_replicate, Fin.val_zero]

/-- Settles O30: the group's own cache by `snapshot_same`, every other one by `snapshot_other`. -/
theorem snapshotCopiesRegisterFile : Obligations.SnapshotCopiesRegisterFile := by
  unfold Obligations.SnapshotCopiesRegisterFile
  intro c b g g'
  refine ⟨?_, rfl⟩
  by_cases hg : g' = g
  · rw [if_pos hg, hg, snapshot_same]
  · rw [if_neg hg, snapshot_other b hg]

/-- Settles O31: the register file that `RESTORE` writes is the cache's (`restore_same`), which is what `SNAP`
copied (`snapshot_same`). -/
theorem restoreUndoesRegisterWrites : Obligations.RestoreUndoesRegisterWrites := by
  unfold Obligations.RestoreUndoesRegisterWrites
  intro c b b' g
  refine ⟨fun hsnap => ?_, restore_same b' g, fun g' hg => restore_other b' hg, rfl⟩
  rw [restore_same]
  exact hsnap.trans (snapshot_same b g)

end Sys2Proof

/-! PROOFS. The Coefficient Scheduler: the inputs of a group's context written out (R183, R184), `CINTERP` on its own
group and on the others (R189), and the operand check and the write of SETRATE (R188, R254). -/

namespace Sys2Proof.Config

variable {c : Config}

@[simp] theorem interpValue_zero (i : Fin c.nCoef) (x : F) : c.interpValue i x zeroF = x := if_pos rfl

/-- Interpolation changes `COEF` only (R189). -/
theorem interp_sameBesidesCoef (gs : c.GS) : interp gs = { gs with coef := (interp gs).coef } := rfl

end Sys2Proof.Config

namespace Sys2Proof.Machine.Block

variable {c : Config} (b : Block c)

/-- Lane 0 of every coefficient, element by element (R183). -/
theorem laneZero_eq_ofFn (g : GroupIx) : b.laneZero g = Vector.ofFn fun i => b.groups[g].coef[i][0] := by
  ext i hi
  simp [laneZero]

/-- The inputs of a group's context, read from lane 0 and from the registers as they stand (R183, R184). -/
theorem coefInputs_eq (g : GroupIx) :
    b.coefInputs g =
      { sharedCfg := c.choices.sharedCfg, type := b.curType, subtype := b.curSub, param := b.param, mods := b.mods,
        group := g, sampleRate := b.fs[g], blockSize := c.blockSize,
        start := Vector.ofFn fun i => b.groups[g].coef[i][0] } := by
  rw [← b.laneZero_eq_ofFn g]
  rfl

/-- The coefficients and ramps that the scheduler leaves are those of the four lane updates: the restore after them
writes the register file only (R165, R181). -/
theorem scheduled_coef_ramp (g : GroupIx) :
    let after := forLanes b.groups[g] fun gs l => Config.laneUpdate (c.coefTarget (b.coefInputs g)) gs l
    (b.scheduled g).coef = after.coef ∧ (b.scheduled g).ramp = after.ramp :=
  ⟨rfl, rfl⟩

theorem cinterp_same (g : GroupIx) : (b.cinterp g).groups[g] = Config.interp b.groups[g] :=
  setGroup_same b g _

theorem cinterp_other {g g' : GroupIx} (h : g' ≠ g) : (b.cinterp g).groups[g'] = b.groups[g'] :=
  setGroup_other b _ h

/-- One coefficient after `CINTERP`, from itself and its own ramp (R189). -/
theorem cinterp_coef (g : GroupIx) (i : Fin c.nCoef) (l : LaneIx) :
    (b.cinterp g).groups[g].coef[i][l] = c.interpValue i b.groups[g].coef[i][l] b.groups[g].ramp[i][l] := by
  rw [cinterp_same, Config.interp_coef]

theorem setRate_fs_getElem (rate : F) (g : GroupIx) : (b.setRate rate).fs[g] = rate := by
  simp [setRate]

end Sys2Proof.Machine.Block

namespace Sys2Proof.Machine

/-- A rate that is not finite or not greater than zero is a reserved word (R128). -/
theorem setrate_checkFor_of_illegal {n : Nat} {rate : F} (h : Float32.isFinitePos rate = false) :
    (Instr.setrate rate).checkFor n = some .rate := by
  rw [Instr.checkFor, h]
  rfl

end Sys2Proof.Machine

/-! The obligations on the Coefficient Scheduler. -/

namespace Sys2Proof

open Sys2Proof.Machine

/-- Settles O38: a group after `CSCHED` is `Block.scheduled`, which keeps its recursive state; its snapshot is
`Block.csched_snap`. -/
theorem schedulerIsStateTransparent : Obligations.SchedulerIsStateTransparent := by
  unfold Obligations.SchedulerIsStateTransparent
  intro c b
  refine ⟨fun g => ?_, b.csched_sameBesides⟩
  obtain ⟨hwp, hactive, hdb⟩ := b.scheduled_keeps g
  rw [b.csched_group g]
  exact ⟨b.scheduled_reg g, hwp, hactive, hdb, b.csched_snap g⟩

/-- Settles O39: the statement's context is that of `Block.coefInputs` (`coefInputs_eq`); under it a group after
`CSCHED` has the coefficients and ramps of the lane updates (`scheduled_coef_ramp`), one trajectory in all lanes
(`scheduled_lane`). -/
theorem schedulerUpdatesEveryGroup : Obligations.SchedulerUpdatesEveryGroup := by
  unfold Obligations.SchedulerUpdatesEveryGroup
  intro c b g
  rw [← b.coefInputs_eq g, b.csched_group g]
  obtain ⟨hcoef, hramp⟩ := b.scheduled_coef_ramp g
  exact ⟨hcoef, hramp, b.scheduled_lane g⟩

/-- Settles O41: `CINTERP` replaces its own group by the interpolated one (`cinterp_same`, `cinterp_other`), in which
each coefficient comes from itself and its ramp by a function of the coefficient's index alone (`cinterp_coef`). -/
theorem interpolationMovesCoefficientsOnly : Obligations.InterpolationMovesCoefficientsOnly := by
  unfold Obligations.InterpolationMovesCoefficientsOnly
  intro c b b' g
  refine ⟨?own, fun g' hne => b.cinterp_other hne, rfl,
    fun i l l' => ⟨fun hzero => ?zeroRamp, fun hcoef hramp => ?alike⟩⟩
  case own =>
    rw [b.cinterp_same g]
    exact Config.interp_sameBesidesCoef b.groups[g]
  case zeroRamp => rw [b.cinterp_coef, hzero, Config.interpValue_zero]
  case alike => rw [b.cinterp_coef, b'.cinterp_coef, hcoef, hramp]

/-- Settles O16: the operand check of SETRATE passes exactly the finite rates greater than zero
(`setrate_wellFormedFor_iff`, `setrate_checkFor_of_illegal`), and an accepted rate is written to every group's
context. -/
theorem setrateWritesEveryGroupsRate : Obligations.SetrateWritesEveryGroupsRate := by
  unfold Obligations.SetrateWritesEveryGroupsRate
  intro s rate
  constructor
  · intro hlegal
    exact ⟨s.wrote (s.block.setRate rate), accept_next.mpr ⟨setrate_wellFormedFor_iff.mpr hlegal, rfl⟩, rfl,
      s.block.setRate_fs_getElem rate, rfl⟩
  · intro hillegal
    exact accept_refused.mpr ⟨.rate, setrate_checkFor_of_illegal hillegal, rfl⟩

end Sys2Proof

/-! PROOFS. `DISPATCH` and the group loop, group by group: the cases of one group's sample (R205), the filter units and the
output voltages of the per-sample path (R221, R230 to R232), and the table it finds (R33). -/

namespace Sys2Proof.Machine.Block

variable {c : Config} {b : Block c}

/-! One group's sample (R205). -/

theorem dispatched_of_bypass (h : b.resolved = none) (gs : c.GS) (x : Vec4) : b.dispatched gs x = (gs, x) := by
  rw [dispatched, h]

theorem dispatched_of_resolved {f : c.GS → Vec4 → c.GS × Vec4} (h : b.resolved = some f) (gs : c.GS) (x : Vec4) :
    b.dispatched gs x = f gs x := by
  rw [dispatched, h]

/-- In bypass `DISPATCH` copies the input vector, and the block is as it was (R205). -/
theorem dispatch_of_bypass (h : b.resolved = none) (inp out : Vector Vec4 8) (g : GroupIx) :
    b.dispatch inp out g = (b, out.set g inp[g]) := by
  rw [dispatch, h]

theorem dispatch_group (b : Block c) (inp out : Vector Vec4 8) (g g' : GroupIx) :
    (b.dispatch inp out g).1.groups[g'] =
      if g' = g then (b.dispatched b.groups[g] inp[g]).1 else b.groups[g'] := by
  split
  · next hg => rw [hg, dispatch_group_same]
  · next hg => rw [dispatch_group_other b inp out hg]

theorem dispatch_out (b : Block c) (inp out : Vector Vec4 8) (g g' : GroupIx) :
    (b.dispatch inp out g).2[g'] = if g' = g then (b.dispatched b.groups[g] inp[g]).2 else out[g'] := by
  split
  · next hg => rw [hg, dispatch_out_same]
  · next hg => rw [dispatch_out_other b inp out hg]

/-- `DISPATCH` writes filter units only, not even the snapshot caches (R205). -/
theorem dispatch_eq (b : Block c) (inp out : Vector Vec4 8) (g : GroupIx) :
    (b.dispatch inp out g).1 = { b with groups := (b.dispatch inp out g).1.groups } := by
  have hrest := b.dispatch_sameBesides inp out g
  rw [SameBesidesGroups, dispatch_snap] at hrest
  exact hrest

/-! The per-sample path, group by group and voice by voice. -/

/-- Every group after the per-sample path: its sample if it is in use, else as it was (R221, R230). -/
theorem sample_group (b : Block c) (g : GroupIx) :
    b.sample.groups[g] = if g.val < b.nSimd then (b.sampled b.gather g).1 else b.groups[g] := by
  have hgroups : b.sample.groups = (b.runGroups b.gather).1.groups := by rw [sample_eq]
  rw [hgroups, runGroups_group]

theorem sample_vout (b : Block c) (sd : Side) (v : Channel) :
    (b.sample.vout.get sd)[v] = b.voiceOut (b.runGroups b.gather).2 sd v := by
  rw [sample_eq, PerSide.get_build, Fin.getElem_fin, Vector.getElem_ofFn]

/-- The per-sample path resolves nothing anew (R204). -/
@[simp] theorem sample_resolved (b : Block c) : b.sample.resolved = b.resolved := by
  rw [resolved, resolved, sample_fn]

theorem voiceOut_of_feeds {sd : Side} {v : Channel} {q : Slot} (h : b.Feeds sd v q) (out : Vector Vec4 8) :
    b.voiceOut out sd v = c.fmul (laneGet out q) c.outScale := by
  obtain ⟨hcarried, hentry⟩ := h
  rw [voiceOut, if_pos hcarried, hentry]

/-! The Allocation Table: a carried voice has a slot, in a group in use, that it shares with no other voice (R33). -/

/-- Every carried voice has a slot (R143, R144). -/
theorem Allocated.exists_feeds (h : b.Allocated) {sd : Side} {v : Channel} (hcarried : b.Carried sd v) :
    ∃ q, b.Feeds sd v q := by
  suffices hentry : ∃ q, b.entry sd v = some q from hentry.imp fun q hq => ⟨hcarried, hq⟩
  rw [entry, h.alloc]
  unfold Carried at hcarried
  rcases alloc_cases (b.lastPoly.get .left) (b.lastPoly.get .right) with
    ⟨hl, hr, htable, -⟩ | ⟨-, hr, htable, -⟩ | ⟨hl, -, htable, -⟩ | ⟨-, -, htable, -⟩ <;> rw [htable]
  case inl => cases sd <;> omega
  case inr.inl =>
    cases sd with
    | left => exact ⟨_, (sequential_entry _ v).trans (if_pos hcarried)⟩
    | right => omega
  case inr.inr.inl =>
    cases sd with
    | left => omega
    | right => exact ⟨_, (sequential_entry _ v).trans (if_pos hcarried)⟩
  case inr.inr.inr =>
    cases sd with
    | left => exact ⟨_, (stackedLeft_entry _ v).trans (if_pos (lt_max_of_lt_left hcarried))⟩
    | right => exact ⟨_, (stackedRight_entry _ v).trans (if_pos (lt_max_of_lt_right hcarried))⟩

/-- The group of an assigned slot is in use (R33 (a), (c)). -/
theorem Allocated.slotGroup_lt (h : b.Allocated) {sd : Side} {v : Channel} {q : Slot} (hentry : b.entry sd v = some q) :
    (slotGroup q).val < b.nSimd := by
  have hlt := h.entry_lt hentry
  have hsimd := h.nSimd_eq
  have hgroup : (slotGroup q).val = q.val / 4 := rfl
  omega

/-- `GATHER` puts a carried voice's converted input in its lane, which no other voice of either side writes (R228). -/
theorem Allocated.gather_of_feeds (h : b.Allocated) {sd : Side} {v : Channel} {q : Slot} (hfeeds : b.Feeds sd v q) :
    laneGet b.gather q = c.fmul (b.vin.get sd)[v] c.inScale := by
  have hone : ∀ sd' v', b.Feeds sd' v' q → sd' = sd ∧ v' = v := fun _ _ h' => h.entry_inj h'.2 hfeeds.2
  unfold gather
  cases sd with
  | left =>
    rw [gatherSide_other b .right _ q fun v' h' => nomatch (hone .right v' h').1]
    exact gatherSide_feeds b .left _ v q hfeeds fun v' h' => (hone .left v' h').2
  | right => exact gatherSide_feeds b .right _ v q hfeeds fun v' h' => (hone .right v' h').2

/-- The output voltage of a carried voice: its lane of its group's sample, in the host's units (R230, R232). -/
theorem Allocated.sample_vout_of_feeds (h : b.Allocated) {sd : Side} {v : Channel} {q : Slot}
    (hfeeds : b.Feeds sd v q) :
    (b.sample.vout.get sd)[v] = c.fmul (b.sampled b.gather (slotGroup q)).2[slotLane q] c.outScale := by
  rw [sample_vout, voiceOut_of_feeds hfeeds, laneGet, runGroups_out, if_pos (h.slotGroup_lt hfeeds.2)]

/-! The block that a tick's per-sample path runs on. -/

theorem atBlockStart_eq (b : Block c) : b.atBlockStart = if c.blockSize ≤ b.pos then b.boundary else b := by
  simp only [atBlockStart, atBoundary, decide_eq_true_eq]

@[simp] theorem atBlockStart_vin (b : Block c) : b.atBlockStart.vin = b.vin := by
  rw [atBlockStart_eq]
  split
  · exact b.boundary_vin
  · rfl

/-- The table that `GATHER` and `SCATTER` of a tick use is the allocator's: the first tick after reset is a boundary tick
(R33 (d), R224). -/
theorem Inv.atBlockStart_allocated (h : b.Inv) : b.atBlockStart.Allocated := by
  rw [atBlockStart_eq]
  split
  · exact boundary_allocated h.allocated_of_not_polyChanged
  · next hpos =>
    rcases h.phase with hfresh | hlatched
    · exact absurd hfresh.pos.ge hpos
    · exact hlatched.allocated

end Sys2Proof.Machine.Block

/-! The obligations on `DISPATCH`, the group loop and the voices' outputs. -/

namespace Sys2Proof

open Sys2Proof.Machine

/-- Settles O45: one group's sample is the copy in bypass (`Block.dispatched_of_bypass`) and the function's result else
(`Block.dispatched_of_resolved`); `DISPATCH` writes it to its own group and output alone. -/
theorem dispatchCopiesOrApplies : Obligations.DispatchCopiesOrApplies := by
  unfold Obligations.DispatchCopiesOrApplies
  intro c b inp out g g'
  refine ⟨fun hbypass => ⟨?copied, ?output⟩, fun f hf => ⟨?group, ?result, b.dispatch_eq inp out g⟩⟩
  case copied => rw [Block.dispatch_of_bypass hbypass]
  case output => rw [b.dispatch_out, Block.dispatched_of_bypass hbypass]
  case group => rw [b.dispatch_group, Block.dispatched_of_resolved hf]
  case result => rw [b.dispatch_out, Block.dispatched_of_resolved hf]

/-- Settles O53: a group in use holds its sample (`Block.sample_group`), which is the interpolated group in bypass and what
the resolved function makes of it else. -/
theorem sampleRunsGroupsInUse : Obligations.SampleRunsGroupsInUse := by
  unfold Obligations.SampleRunsGroupsInUse
  intro c b g
  rw [b.sample_group g, Block.sampled]
  cases hf : b.resolved with
  | none => rw [Block.dispatched_of_bypass hf]
  | some f => rw [Block.dispatched_of_resolved hf]

/-- Settles O56: `m` is the block that the tick's per-sample path runs on, whose table is the allocator's
(`Block.Inv.atBlockStart_allocated`), so the voice's group is in use and its lane is put out
(`Block.Allocated.sample_vout_of_feeds`). -/
theorem voiceOutputIsItsLanesFilterOutput : Obligations.VoiceOutputIsItsLanesFilterOutput := by
  unfold Obligations.VoiceOutputIsItsLanesFilterOutput
  intro c b hinv m hm sd v q hcarried hentry
  obtain rfl : m = b.atBlockStart := hm.trans b.atBlockStart_eq.symm
  rw [Block.tick, hinv.atBlockStart_allocated.sample_vout_of_feeds ⟨hcarried, hentry⟩, Block.sampled]
  cases hf : b.atBlockStart.resolved with
  | none => rw [Block.dispatched_of_bypass hf]
  | some f => rw [Block.dispatched_of_resolved hf]

/-- Settles O57: the voice has a slot (`Block.Allocated.exists_feeds`), whose lane holds its converted input
(`Block.Allocated.gather_of_feeds`), and in bypass its group's output vector is that input vector. -/
theorem bypassPassesInputsThrough : Obligations.BypassPassesInputsThrough := by
  unfold Obligations.BypassPassesInputsThrough
  intro c b hinv hbypass sd v hlt
  rw [Block.tick, Block.sample_resolved] at hbypass
  rw [Block.tick, Block.sample_lastPoly] at hlt
  have halloc := hinv.atBlockStart_allocated
  obtain ⟨q, hfeeds⟩ := halloc.exists_feeds hlt
  have hinput : laneGet b.atBlockStart.gather q = c.fmul (b.vin.get sd)[v] c.inScale := by
    rw [halloc.gather_of_feeds hfeeds, Block.atBlockStart_vin]
  rw [Block.tick, halloc.sample_vout_of_feeds hfeeds, Block.sampled, Block.dispatched_of_bypass hbypass, ← hinput,
    laneGet]

end Sys2Proof

/-! PROOFS. The Block Processor: the position counts the ticks of the block (R222, R235), `GATHER` leaves silence where no
voice feeds a lane (R229), `SCATTER` voice by voice (R232, R233), and the polyphony that a tick leaves latched (R224). -/

namespace Sys2Proof.Machine.Block

variable {c : Config} (b : Block c)

/-- The position counts the ticks of the block; the tick that does the boundary work is its first (R222, R235). -/
theorem tick_pos : b.tick.pos = if c.blockSize ≤ b.pos then 1 else b.pos + 1 := by
  rw [tick, sample_pos, atBlockStart_eq]
  split
  · rw [boundary_pos]
  · rfl

/-- The ticks after a boundary are numbered 1 to `BLOCK_SIZE`, over and over (R222, R235). -/
theorem iterate_tick_pos {b : Block c} (hpos : b.pos = c.blockSize) (k : Nat) :
    (tick^[k + 1] b).pos = k % c.blockSize + 1 := by
  induction k with
  | zero =>
    change b.tick.pos = _
    rw [tick_pos, if_pos hpos.ge, Nat.zero_mod]
  | succ k ih =>
    have hlt : k % c.blockSize < c.blockSize := Nat.mod_lt k (Nat.succ_pos _)
    rw [Function.iterate_succ_apply', tick_pos, ih, ← Nat.mod_add_mod]
    split
    case isTrue hlast => rw [show k % c.blockSize + 1 = c.blockSize from Nat.le_antisymm hlt hlast, Nat.mod_self]
    case isFalse hinside => rw [Nat.mod_eq_of_lt (Nat.lt_of_not_le hinside)]

/-- Without a carried voice on its slot a lane keeps the silence that `GATHER` starts from (R229). -/
theorem gather_of_not_feeds {q : Slot} (h : ∀ sd v, ¬ b.Feeds sd v q) : laneGet b.gather q = zeroF := by
  unfold gather
  rw [gatherSide_other b .right _ q (h .right), gatherSide_other b .left _ q (h .left)]
  simp [laneGet]

/-- A voice that is not carried, or has no slot, is silent (R232). -/
theorem voiceOut_of_silent {sd : Side} {v : Channel} (h : ¬ b.Carried sd v ∨ b.entry sd v = none)
    (out : Vector Vec4 8) : b.voiceOut out sd v = zeroF := by
  unfold voiceOut
  split
  · next hcarried => rw [h.resolve_left (not_not_intro hcarried)]
  · rfl

theorem scatter_vout_getElem (out : Vector Vec4 8) (sd : Side) (v : Channel) :
    ((b.scatter out).vout.get sd)[v] = b.voiceOut out sd v := by
  rw [scatter_vout, PerSide.get_build, Fin.getElem_fin, Vector.getElem_ofFn]

/-- A side's channel count is its latched polyphony, at least 1 (R233). -/
theorem scatter_outch_cast (out : Vector Vec4 8) (sd : Side) :
    ((b.scatter out).outch.get sd : Int) = max (b.lastPoly.get sd) 1 := by
  rw [scatter_outch, PerSide.get_build]
  omega

theorem tick_outch_cast (sd : Side) : (b.tick.outch.get sd : Int) = max (b.tick.lastPoly.get sd) 1 := by
  rw [tick_outch]
  omega

/-- A tick latches the polyphony ports at a boundary only (R222, R224). -/
theorem tick_lastPoly : b.tick.lastPoly = if c.blockSize ≤ b.pos then b.poly else b.lastPoly := by
  rw [tick, sample_lastPoly, atBlockStart_eq]
  split
  · exact b.boundary_lastPoly
  · rfl

/-- A channel past the latched polyphony is silent after a tick (R232). -/
theorem tick_vout_of_not_carried {sd : Side} {v : Channel} (h : ¬ b.tick.Carried sd v) :
    (b.tick.vout.get sd)[v] = zeroF := by
  have hcarried : ¬ b.atBlockStart.Carried sd v := by rwa [Carried, tick, sample_lastPoly] at h
  rw [tick, sample_vout, voiceOut_of_silent _ (.inl hcarried)]

end Sys2Proof.Machine.Block

namespace Sys2Proof.Machine

/-- TICK runs one tick of the block (R253). -/
theorem exec_tick (s : State) : exec .tick s = .next (s.wrote s.block.tick) := rfl

end Sys2Proof.Machine

/-! The obligations on the Block Processor. -/

namespace Sys2Proof

open Sys2Proof.Machine

/-- Settles O48, by induction on the ticks since the boundary (`Block.iterate_tick_pos`). -/
theorem boundaryCadence : Obligations.BoundaryCadence := by
  unfold Obligations.BoundaryCadence
  intro c b k hpos
  exact Block.iterate_tick_pos hpos k

/-- Settles O52: the table that `GATHER` finds is the allocator's, so no other voice writes a carried voice's lane
(`Block.Allocated.gather_of_feeds`); a lane that no carried voice writes keeps its silence
(`Block.gather_of_not_feeds`). -/
theorem gatherFillsEveryLane : Obligations.GatherFillsEveryLane := by
  unfold Obligations.GatherFillsEveryLane
  intro c b hinv q
  constructor
  · intro sd v hcarried hentry
    rw [hinv.atBlockStart_allocated.gather_of_feeds ⟨hcarried, hentry⟩, Block.atBlockStart_vin]
  · intro hnone
    exact Block.gather_of_not_feeds _ fun sd v ⟨hcarried, hentry⟩ => hnone sd v hcarried hentry

/-- Settles O54: an output voltage is its voice's (`Block.scatter_vout_getElem`), in the two cases of
`Block.voiceOut_of_feeds` and `Block.voiceOut_of_silent`. -/
theorem scatterWritesEveryOutput : Obligations.ScatterWritesEveryOutput := by
  unfold Obligations.ScatterWritesEveryOutput
  intro c b out
  refine ⟨fun sd v => ⟨fun q hcarried hentry => ?voice, fun hsilent => ?silent⟩, b.scatter_outch_cast out, rfl⟩
  case voice => rw [b.scatter_vout_getElem, Block.voiceOut_of_feeds ⟨hcarried, hentry⟩]
  case silent => rw [b.scatter_vout_getElem, b.voiceOut_of_silent hsilent]

/-- Settles O55: a tick leaves latched what `Block.tick_lastPoly` says, and its outputs follow that
(`Block.tick_outch_cast`, `Block.tick_vout_of_not_carried`). -/
theorem outputsFollowLatchedPolyphony : Obligations.OutputsFollowLatchedPolyphony := by
  unfold Obligations.OutputsFollowLatchedPolyphony
  intro c b sd
  refine ⟨?latched, b.tick_outch_cast sd, fun v hpast => b.tick_vout_of_not_carried (Int.not_lt.mpr hpast)⟩
  rw [b.tick_lastPoly, apply_ite (PerSide.get · sd)]

/-- Settles O15: TICK is one tick of the block (`exec_tick`), which does the boundary work if it is due
(`Block.atBlockStart_eq`) and counts itself in the position (`Block.tick_pos`). -/
theorem tickCompletesAndAdvancesPosition : Obligations.TickCompletesAndAdvancesPosition := by
  unfold Obligations.TickCompletesAndAdvancesPosition
  intro s
  refine ⟨s.wrote s.block.tick, exec_tick s, rfl, rfl, ?boundary, s.block.tick_pos⟩
  rw [Block.tick, Block.atBlockStart_eq, apply_ite Block.sample, Block.boundary]

end Sys2Proof

/-! PROOFS. Port registers and parameter slots: what a read gives after a write, of the same entry and of any other
(R256 to R259, R265). -/

namespace Sys2Proof

/-- Each entry of a table after the write of one. -/
theorem getElem_set_fin {α : Type} {n : Nat} (xs : Vector α n) (i j : Fin n) (x : α) :
    (xs.set i x)[j] = if j = i then x else xs[j] := by
  simp [Vector.getElem_set, Fin.ext_iff, eq_comm]

/-- The slot of a scalar parameter (R109). -/
def scalarSlot (p : Fin 5) : ParamSlot := #v[.freq, .res, .inGain, .mix, .outGain][p]

theorem byte_scalarSlot (p : Fin 5) : (scalarSlot p).byte = BitVec.ofNat 8 p.val := by decide +revert

/-- A slot's number tells it from every other slot. -/
theorem ParamSlot.byte_inj {p q : ParamSlot} (h : p.byte = q.byte) : p = q :=
  Except.ok.inj (by rw [← ParamSlot.ofByte?_byte p, h, ParamSlot.ofByte?_byte])

theorem eq_scalarSlot_of_byte {slot : ParamSlot} {p : Fin 5} (h : slot.byte = BitVec.ofNat 8 p.val) :
    slot = scalarSlot p :=
  ParamSlot.byte_inj (h.trans (byte_scalarSlot p).symm)

/-- A slot is that of a scalar, or one of the two selectors. -/
theorem scalarSlot_cases (slot : ParamSlot) : (∃ p, slot = scalarSlot p) ∨ slot = .type ∨ slot = .subtype := by
  cases slot <;> decide

end Sys2Proof

namespace Sys2Proof.Machine

variable (q : ParamSlots) (data : BitVec 32)

theorem readSlot_scalarSlot (p : Fin 5) : readSlot q (scalarSlot p) = q.scalars[p] := by
  fin_cases p <;> rfl

theorem writeSlot_scalarSlot (p : Fin 5) :
    writeSlot q (scalarSlot p) data = { q with scalars := q.scalars.set p data } := by
  fin_cases p <;> rfl

/-- A slot gives back the pattern written: a selector slot holds its two's-complement reading, which loses nothing
(R113, R265). -/
theorem readSlot_writeSlot_same (slot : ParamSlot) : readSlot (writeSlot q slot data) slot = data := by
  rcases scalarSlot_cases slot with ⟨p, rfl⟩ | rfl | rfl
  · rw [readSlot_scalarSlot, writeSlot_scalarSlot, getElem_set_fin, if_pos rfl]
  · exact BitVec.ofInt_toInt
  · exact BitVec.ofInt_toInt

theorem readSlot_writeSlot_other {slot slot' : ParamSlot} (h : slot' ≠ slot) :
    readSlot (writeSlot q slot data) slot' = readSlot q slot' := by
  rcases scalarSlot_cases slot with ⟨p, rfl⟩ | rfl | rfl
  · rw [writeSlot_scalarSlot]
    rcases scalarSlot_cases slot' with ⟨p', rfl⟩ | rfl | rfl
    · have hne : p' ≠ p := fun e => h (congrArg scalarSlot e)
      rw [readSlot_scalarSlot, readSlot_scalarSlot, getElem_set_fin, if_neg hne]
    · rfl
    · rfl
  · cases slot' with
    | type => exact absurd rfl h
    | _ => rfl
  · cases slot' with
    | subtype => exact absurd rfl h
    | _ => rfl

/-- The response of a natural number (R116). -/
theorem intResp_natCast (n : Nat) : intResp n = BitVec.ofNat 32 n := BitVec.ofInt_natCast 32 n

/-- A 32-bit signed integer is read back from its response (R116). -/
theorem toInt_intResp {k : Int} (hlow : -2 ^ 31 ≤ k) (hhigh : k < 2 ^ 31) : (intResp k).toInt = k :=
  toInt_ofInt_of_range hlow (Int.le_of_lt_add_one hhigh)

theorem setChannel_getElem (t : PerSide (Vector F 16)) (sd sd' : Side) (v v' : Channel) (x : F) :
    ((setChannel t sd v x).get sd')[v'] = if sd' = sd ∧ v' = v then x else (t.get sd')[v'] := by
  rw [setChannel, PerSide.get_set, ite_and]
  split
  · next hsd => rw [getElem_set_fin, hsd]
  · rfl

/-- Each modulation input after the write of one (R258). -/
theorem setMod_getElem (t : ModTable) (p p' : Fin 5) (k k' : Fin 4) (x : F) :
    (t.set p (t[p].set k x))[p'][k'] = if p' = p ∧ k' = k then x else t[p'][k'] := by
  rw [getElem_set_fin, ite_and]
  split
  · next hp => rw [getElem_set_fin, hp]
  · rfl

/-- Each remembered subtype after the write of one that is not negative (R259). -/
theorem setDefault_getElem {n : Nat} (t : Vector Nat n) (type : BitVec 8) (k : Fin n) {subtype : Int}
    (h : 0 ≤ subtype) :
    ((t.setIfInBounds type.toNat subtype.toNat)[k] : Int) = if k.val = type.toNat then subtype else t[k] := by
  rw [Fin.getElem_fin, Vector.getElem_setIfInBounds]
  by_cases hk : k.val = type.toNat
  · rw [if_pos hk.symm, if_pos hk, Int.toNat_of_nonneg h]
  · rw [if_neg (Ne.symm hk), if_neg hk, Fin.getElem_fin]

end Sys2Proof.Machine

/-! PROOFS. Every command in one form: the operand check, what it makes of the block, what it answers (R250 to R265). -/

namespace Sys2Proof.Machine

namespace Block

variable {c : Config}

/-- The block that an accepted command leaves (R252 to R265). -/
def afterCommand (b : Block c) : Instr → Block c
  | .reset => Block.reset c
  | .tick => b.tick
  | .setrate rate => b.setRate rate
  | .setpoly sd count => { b with poly := b.poly.set sd count }
  | .wrin sd v x => { b with vin := setChannel b.vin sd v x }
  | .wrparam slot data => { b with param := writeSlot b.param slot data }
  | .wrmod p k x => { b with mods := b.mods.set p (b.mods[p].set k x) }
  | .wrdef type subtype => { b with defsub := b.defsub.setIfInBounds type.toNat subtype.toNat }
  | .rdout _ _ | .rdch _ | .rdtype | .rdsub | .rddef _ | .rdparam _ => b

/-- What an accepted command answers (R251, R260 to R265). -/
def answerTo (b : Block c) : Instr → Option Resp
  | .rdout sd v => some (b.vout.get sd)[v]
  | .rdch sd => some (intResp (b.outch.get sd))
  | .rdtype => some (intResp b.curType)
  | .rdsub => some (intResp b.curSub)
  | .rddef type => some (intResp (b.defsub[type.toNat]?.getD 0 : Nat))
  | .rdparam slot => some (readSlot b.param slot)
  | .reset | .tick | .setrate _ | .setpoly _ _ | .wrin _ _ _ | .wrparam _ _ | .wrmod _ _ _ | .wrdef _ _ => none

variable (b : Block c) (i : Instr)

/-- The read commands are those that answer (R251). -/
theorem answerTo_isSome_iff :
    (b.answerTo i).isSome ↔ i.opcode ∈ [Opcode.rdout, .rdch, .rdtype, .rdsub, .rddef, .rdparam] := by
  cases i with
  | rdout | rdch | rdtype | rdsub | rddef | rdparam => exact iff_of_true rfl (by simp [Instr.opcode])
  | _ => exact iff_of_false nofun (by simp [Instr.opcode])

theorem answerTo_rddef {type : BitVec 8} (h : type.toNat < c.nTypes) :
    b.answerTo (.rddef type) = some (BitVec.ofNat 32 b.defsub[type.toNat]) := by
  rw [answerTo, Vector.getElem?_eq_getElem h, Option.getD_some, intResp_natCast]

/-! What the commands of one issuer can change (R266, R301). -/

variable {i}

theorem afterCommand_of_collaborators (h : i.issuer = .collaborators) :
    b.afterCommand i = { b with param := (b.afterCommand i).param, defsub := (b.afterCommand i).defsub } := by
  cases i with
  | wrparam | wrdef | rdtype | rdsub | rddef | rdparam => rfl
  | _ => cases h

theorem afterCommand_of_controlPath (h : i.issuer = .controlPath) :
    b.afterCommand i = { b with fs := (b.afterCommand i).fs } := by
  cases i with
  | setrate => rfl
  | _ => cases h

theorem afterCommand_of_realTimeThread (h : i.issuer = .realTimeThread) (htick : i ≠ .tick) :
    b.afterCommand i =
      { b with poly := (b.afterCommand i).poly, vin := (b.afterCommand i).vin, mods := (b.afterCommand i).mods } := by
  cases i with
  | tick => exact absurd rfl htick
  | setpoly | wrin | wrmod | rdout | rdch => rfl
  | _ => cases h

/-- Only RESET and a write to the slot itself change what a slot reads (R85, R252, R257). -/
theorem readSlot_afterCommand {slot : ParamSlot} (hreset : i ≠ .reset) (hwrite : ∀ d, i ≠ .wrparam slot d) :
    readSlot (b.afterCommand i).param slot = readSlot b.param slot := by
  cases i with
  | reset => exact absurd rfl hreset
  | tick => exact congrArg (readSlot · slot) b.tick_param
  | wrparam slot' data => exact readSlot_writeSlot_other _ _ fun e => hwrite data (e ▸ rfl)
  | _ => rfl

/-- Every channel count is that of a legal polyphony, at least 1 (R47). -/
theorem Inv.outch_range {b : Block c} (h : b.Inv) (sd : Side) : 1 ≤ b.outch.get sd ∧ b.outch.get sd ≤ 16 := by
  have hlast : b.lastPoly.get sd ≤ 16 := by
    rcases h.phase with hfresh | hlatched
    · rw [hfresh.lastPoly sd]
      decide
    · exact (hlatched.lastPoly sd).2
  have hcount := h.outch sd
  omega

end Block

/-- The state that an accepted command leaves; what the host has still presented stays presented (log 1). -/
def State.afterCommand (s : State) (i : Instr) : State :=
  { s with block := s.block.afterCommand i, resp := s.block.answerTo i }

/-- Every command runs through the operand check, and past it leaves `State.afterCommand`. -/
theorem exec_eq_accept_afterCommand (i : Instr) (s : State) :
    exec i s = accept (i.checkFor Config.device.nTypes) (s.afterCommand i) := by
  cases i <;> rfl

/-- What an accepted command can do. -/
theorem exec_next_iff {i : Instr} {s t : State} : exec i s = .next t ↔ i.WellFormed ∧ s.afterCommand i = t := by
  rw [exec_eq_accept_afterCommand, accept_next]

theorem exec_of_wellFormed {i : Instr} (h : i.WellFormed) (s : State) : exec i s = .next (s.afterCommand i) :=
  exec_next_iff.mpr ⟨h, rfl⟩

/-- What the operand check refuses is refused by its name (R128). -/
theorem exec_of_checkFor {i : Instr} {r : Reserved} (h : i.checkFor Config.device.nTypes = some r) (s : State) :
    exec i s = .refused (.reserved r) := by
  rw [exec_eq_accept_afterCommand, h, accept]

/-- A count outside -1..16 is a reserved word (R128). -/
theorem setpoly_checkFor_of_illegal {n : Nat} {sd : Side} {count : Int} (h : ¬ (-1 ≤ count ∧ count ≤ 16)) :
    (Instr.setpoly sd count).checkFor n = some .count := by
  rw [Instr.checkFor, if_neg h]

/-- A filter type that does not exist is a reserved word (R128). -/
theorem rddef_checkFor_of_illegal {n : Nat} {type : BitVec 8} (h : ¬ type.toNat < n) :
    (Instr.rddef type).checkFor n = some .type := by
  rw [Instr.checkFor, if_neg h]

theorem step_of_no_command {s : State} (h : s.cmds = []) : step s = .next s := by
  simp only [step, State.fetch, h]

theorem step_of_decode_ok {s : State} {w : Word} {rest : List Word} {i : Instr} (hcmds : s.cmds = w :: rest)
    (h : decode w = .ok i) : step s = exec i { s with cmds := rest } := by
  simp only [step, State.fetch, hcmds, h]

end Sys2Proof.Machine

/-! The obligations on the host commands. -/

namespace Sys2Proof

open Sys2Proof.Machine

/-- Settles O10: an accepted command leaves the port as it is and answers as `Block.answerTo` says. -/
theorem onlyReadCommandsRespond : Obligations.OnlyReadCommandsRespond := by
  unfold Obligations.OnlyReadCommandsRespond
  intro i s t h
  obtain ⟨-, rfl⟩ := exec_next_iff.mp h
  exact ⟨rfl, s.block.answerTo_isSome_iff i⟩

/-- Settles O23: the invariant bounds the channel count (`Block.Inv.outch_range`), so 32 bits hold it. -/
theorem rdchAnswersChannelCount : Obligations.RdchAnswersChannelCount := by
  unfold Obligations.RdchAnswersChannelCount
  intro s sd
  refine ⟨s.afterCommand (.rdch sd), intResp (s.block.outch.get sd), exec_of_wellFormed rfl s, rfl, rfl,
    intResp_natCast _, fun hinv => ?range⟩
  obtain ⟨hlow, hhigh⟩ := hinv.outch_range sd
  have hnat : (intResp (s.block.outch.get sd)).toNat = s.block.outch.get sd := by
    rw [intResp_natCast, BitVec.toNat_ofNat, Nat.mod_eq_of_lt (by omega)]
  rw [hnat]
  exact ⟨hlow, hhigh⟩

/-- Settles O27: a slot reads the pattern written to it (`readSlot_writeSlot_same`), and only RESET and a write to the
slot change that (`Block.readSlot_afterCommand`). -/
theorem rdparamReturnsLastWrittenPattern : Obligations.RdparamReturnsLastWrittenPattern := by
  unfold Obligations.RdparamReturnsLastWrittenPattern
  constructor
  · intro slot data s t u hwrite hread
    obtain ⟨-, rfl⟩ := exec_next_iff.mp hwrite
    obtain ⟨-, rfl⟩ := exec_next_iff.mp hread
    exact congrArg some (readSlot_writeSlot_same _ data slot)
  · intro slot i s t u v hreset hother hexec hbefore hafter
    obtain ⟨-, rfl⟩ := exec_next_iff.mp hexec
    obtain ⟨-, rfl⟩ := exec_next_iff.mp hbefore
    obtain ⟨-, rfl⟩ := exec_next_iff.mp hafter
    exact congrArg some (s.block.readSlot_afterCommand hreset hother)

/-- Settles O28, issuer by issuer (`Block.afterCommand_of_collaborators`, `Block.afterCommand_of_controlPath`,
`Block.afterCommand_of_realTimeThread`). -/
theorem issuersChangeOnlyTheirState : Obligations.IssuersChangeOnlyTheirState := by
  unfold Obligations.IssuersChangeOnlyTheirState
  intro i s t h
  obtain ⟨-, rfl⟩ := exec_next_iff.mp h
  exact ⟨s.block.afterCommand_of_collaborators, s.block.afterCommand_of_controlPath,
    s.block.afterCommand_of_realTimeThread⟩

/-- Settles O7: the port takes the word that decodes (`step_of_decode_ok`). -/
theorem stepRunsDecodedCommand : Obligations.StepRunsDecodedCommand := by
  unfold Obligations.StepRunsDecodedCommand
  intro s w rest i
  exact step_of_decode_ok

/-- Settles O8: there is no word to take (`step_of_no_command`). -/
theorem stepWaitsWithoutCommand : Obligations.StepWaitsWithoutCommand := by
  unfold Obligations.StepWaitsWithoutCommand
  intro s
  exact step_of_no_command

/-- Settles O17: the operand check passes exactly the legal counts, and one entry of the ports is replaced. -/
theorem setpolyWritesOnePort : Obligations.SetpolyWritesOnePort := by
  unfold Obligations.SetpolyWritesOnePort
  intro s sd count
  constructor
  · intro hlegal
    exact ⟨s.afterCommand (.setpoly sd count), exec_of_wellFormed (setpoly_wellFormedFor_iff.mpr hlegal) s, rfl,
      fun sd' => PerSide.get_set s.block.poly sd sd' count, rfl⟩
  · intro hillegal
    exact exec_of_checkFor (setpoly_checkFor_of_illegal hillegal) s

/-- Settles O18: one entry of the input voltages is replaced (`setChannel_getElem`). -/
theorem wrinWritesOneVoltage : Obligations.WrinWritesOneVoltage := by
  unfold Obligations.WrinWritesOneVoltage
  intro s sd v x
  exact ⟨s.afterCommand (.wrin sd v x), exec_of_wellFormed rfl s, rfl,
    fun sd' v' => setChannel_getElem s.block.vin sd sd' v v' x, rfl⟩

/-- Settles O19: a slot numbered 0 to 4 is a scalar's (`eq_scalarSlot_of_byte`), whose write replaces one entry
(`writeSlot_scalarSlot`). -/
theorem wrparamWritesOneSlot : Obligations.WrparamWritesOneSlot := by
  unfold Obligations.WrparamWritesOneSlot
  intro s data
  refine ⟨fun slot p hslot => ?scalar, ⟨_, exec_of_wellFormed rfl s, rfl, rfl⟩,
    ⟨_, exec_of_wellFormed rfl s, rfl, rfl⟩⟩
  obtain rfl := eq_scalarSlot_of_byte hslot
  have hblock : (s.afterCommand (.wrparam (scalarSlot p) data)).block =
      { s.block with param := { s.block.param with scalars := s.block.param.scalars.set p data } } :=
    congrArg (fun q => { s.block with param := q }) (writeSlot_scalarSlot s.block.param data p)
  refine ⟨_, exec_of_wellFormed rfl s, rfl, ?_⟩
  rw [hblock]
  exact ⟨fun p' => getElem_set_fin _ p p' data, rfl⟩

/-- Settles O20: one entry of one row of the modulation inputs is replaced. -/
theorem wrmodWritesOneInput : Obligations.WrmodWritesOneInput := by
  unfold Obligations.WrmodWritesOneInput
  intro s p k x
  exact ⟨s.afterCommand (.wrmod p k x), exec_of_wellFormed rfl s, rfl,
    fun p' k' => setMod_getElem s.block.mods p p' k k' x, rfl⟩

/-- Settles O21: the operand check passes exactly the legal operands (`wrdef_wellFormedFor_iff`), and one entry of the
Default Subtype Memory is replaced. -/
theorem wrdefWritesOneEntry : Obligations.WrdefWritesOneEntry := by
  unfold Obligations.WrdefWritesOneEntry
  intro s type subtype
  constructor
  · intro hlegal
    refine ⟨s.afterCommand (.wrdef type subtype), exec_of_wellFormed (wrdef_wellFormedFor_iff.mpr hlegal) s, rfl,
      fun k => ?_, rfl⟩
    exact setDefault_getElem s.block.defsub type k hlegal.2.1
  · intro hillegal
    obtain ⟨r, hr⟩ := Option.ne_none_iff_exists'.mp fun h => hillegal (wrdef_wellFormedFor_iff.mp h)
    exact ⟨r, exec_of_checkFor hr s⟩

/-- Settles O22: RDOUT reads the block only. -/
theorem rdoutAnswersOutputVoltage : Obligations.RdoutAnswersOutputVoltage := by
  unfold Obligations.RdoutAnswersOutputVoltage
  intro s sd v
  exact ⟨s.afterCommand (.rdout sd v), exec_of_wellFormed rfl s, rfl, rfl⟩

/-- Settles O24: 32 bits hold the latched pair (`toInt_intResp`). -/
theorem rdtypeAndRdsubAnswerLatchedPair : Obligations.RdtypeAndRdsubAnswerLatchedPair := by
  unfold Obligations.RdtypeAndRdsubAnswerLatchedPair
  intro s
  exact ⟨⟨_, _, exec_of_wellFormed rfl s, rfl, rfl, rfl, toInt_intResp⟩,
    ⟨_, _, exec_of_wellFormed rfl s, rfl, rfl, rfl, toInt_intResp⟩⟩

/-- Settles O25: the entry of a type that exists is in the table, and the check refuses every other type. -/
theorem rddefAnswersRememberedSubtype : Obligations.RddefAnswersRememberedSubtype := by
  unfold Obligations.RddefAnswersRememberedSubtype
  intro s type
  split
  · next hlegal =>
    refine ⟨s.afterCommand (.rddef type), exec_of_wellFormed (rddef_wellFormedFor_iff.mpr hlegal) s, ?_, rfl⟩
    exact s.block.answerTo_rddef hlegal
  · next hillegal => exact exec_of_checkFor (rddef_checkFor_of_illegal hillegal) s

/-- Settles O26: a slot numbered 0 to 4 is a scalar's (`eq_scalarSlot_of_byte`), read by `readSlot_scalarSlot`. -/
theorem rdparamAnswersSlotPattern : Obligations.RdparamAnswersSlotPattern := by
  unfold Obligations.RdparamAnswersSlotPattern
  intro s
  refine ⟨fun slot p hslot => ?scalar, ⟨_, exec_of_wellFormed rfl s, rfl, rfl⟩,
    ⟨_, exec_of_wellFormed rfl s, rfl, rfl⟩⟩
  obtain rfl := eq_scalarSlot_of_byte hslot
  exact ⟨s.afterCommand (.rdparam (scalarSlot p)), exec_of_wellFormed rfl s,
    congrArg some (readSlot_scalarSlot s.block.param p), rfl⟩

end Sys2Proof
